-- ==== Sys2Proof/Word.lean ====
section
/-! DEFINITION. The word types of the motoko-prng CORE and the names of its three engines. -/

namespace Sys2Proof

/-- The 64-bit word: state words of SEIRAN and SFC64, argument fields, response data, lanes (R9, R45). -/
abbrev Word64 := BitVec 64

/-- The 32-bit word of the SFC32 engine (R7). -/
abbrev Word32 := BitVec 32

/-- The command frame, one 200-bit value; it is a bit vector and has no byte order (R31, R37). -/
abbrev Frame := BitVec 200

/-- The three engines of the block (R1, R5); the `unit` field of an opcode names one of them (R38). -/
inductive Engine where
  | seiran
  | sfc32
  | sfc64
deriving DecidableEq, Repr

/-- The word width `W(U)` of an engine (R7). -/
def Engine.width : Engine → Nat
  | .seiran => 64
  | .sfc32 => 32
  | .sfc64 => 64

end Sys2Proof
end

