-- ==== Sys2Proof/Machine/Arith.lean ====
section
/-! DEFINITION. The shift and rotate primitives of R16. Wraparound addition and multiplication (R13, R14)
and the bitwise operations (R15) are those of `BitVec`. Every amount used is below the width; what these
functions give for a larger amount is observed by nothing (93_implementation_defined U3, log 9). -/

namespace Sys2Proof.Machine

/-- `shl_W(x, k)`: plain left shift, high bits lost (R16). -/
def shl {w : Nat} (x : BitVec w) (k : Nat) : BitVec w := x <<< k

/-- `shr_W(x, k)`: logical right shift, zeros enter at the top (R16). -/
def shr {w : Nat} (x : BitVec w) (k : Nat) : BitVec w := x >>> k

/-- `rotl_W(x, k)`: the sum of the two shifts for `0 < k`, and `x` for `k = 0` (R16). -/
def rotl {w : Nat} (x : BitVec w) (k : Nat) : BitVec w :=
  if k = 0 then x else shl x k + shr x (w - k)

end Sys2Proof.Machine
end

