-- ==== Sys2Proof/Machine/Constants.lean ====
section
/-! DEFINITION. The hardwired constants of the block (R7, R23 (a)). -/

namespace Sys2Proof.Machine

/-- `C1`, the Seiran seeding multiplier (R7). -/
def C1 : Word64 := 6364136223846793005

/-- `C2`, the Seiran seeding increment (R7). -/
def C2 : Word64 := 1442695040888963407

/-- `SEIRAN_ROT_OUT`, the rotate of the output product (R7). -/
def seiranRotOut : Nat := 29

/-- `SEIRAN_MUL`, the output multiplier (R7). -/
def seiranMul : Word64 := 9

/-- `SEIRAN_ROT_B`, the rotate of `b` in the update of `a` (R7). -/
def seiranRotB : Nat := 29

/-- `SEIRAN_SHL_B`, the left shift of `b` in the update of `b` (R7). -/
def seiranShlB : Nat := 9

/-- `JUMP32_POLY`, low word (R7). -/
def jump32Lo : Word64 := 0x40165CBAE9CA6DEB

/-- `JUMP32_POLY`, high word (R7). -/
def jump32Hi : Word64 := 0x688E6BFC19485AB1

/-- `JUMP64_POLY`, low word (R7). -/
def jump64Lo : Word64 := 0xF4DF34E424CA5C56

/-- `JUMP64_POLY`, high word (R7). -/
def jump64Hi : Word64 := 0x2FE2DE5C2E12F601

/-- `JUMP96_POLY`, low word (R7). -/
def jump96Lo : Word64 := 0x185F4DF8B7634607

/-- `JUMP96_POLY`, high word (R7). -/
def jump96Hi : Word64 := 0x95A98C7025F908B2

/-- `SFC_WARMUP`, the discarded steps of a seeding (R7). -/
def sfcWarmupSteps : Nat := 12

/-- `SFC64_DEFAULT_SEED` (R7). -/
def sfc64DefaultSeed : Word64 := 0xcafef00dbeef5eed

/-- `SFC32_DEFAULT_SEED` (R7). -/
def sfc32DefaultSeed : Word32 := 0xbeef5eed

/-- `PRINTABLE_LO`, the lower bound of the printable filter, included (R7). -/
def printableLo : Nat := 0x20

/-- `PRINTABLE_HI`, the upper bound of the printable filter, included (R7). -/
def printableHi : Nat := 0x7E

end Sys2Proof.Machine
end

