-- ==== Sys2Proof/Machine/Flags.lean ====
section
/-! DEFINITION. The block has no flags and no condition codes (R23 (b)). The only condition a command
tests on data is the acceptance predicate of `PACK`. -/

namespace Sys2Proof.Machine

/-- The printable filter: both bounds included, the candidate read as an unsigned number (R76). -/
def printable (cand : Nat) : Bool := printableLo ≤ cand && cand ≤ printableHi

/-- The predicate selected by `filt`: none accepts every candidate (R76). -/
def accepts (filt : Bool) (cand : Nat) : Bool := !filt || printable cand

end Sys2Proof.Machine
end

