-- ==== Sys2Proof/Machine/Operands.lean ====
section
/-! DEFINITION. How narrow values are taken from words and put into the 64-bit response data and lanes. -/

namespace Sys2Proof.Machine

/-- `zext_64` of a value of any width up to 64 (R10, R42, R44). -/
def zext64 {n : Nat} (v : BitVec n) : Word64 := v.setWidth 64

/-- `low_N(w)`: the low `n` bits of a word, delivered zero-extended (R80). -/
def lowBits {w : Nat} (n : Nat) (x : BitVec w) : Word64 := zext64 (x.setWidth n)

/-- The candidate `rand[nbits-1:0]` (R27, R71). -/
def candidate {w : Nat} (nbits : Nat) (rand : BitVec w) : BitVec nbits := rand.setWidth nbits

/-- `{hi, lo}`: the first word drawn is the low half (R29). -/
def joinHalves (hi lo : Word32) : Word64 := hi ++ lo

end Sys2Proof.Machine
end

