-- ==== Sys2Proof/Config.lean ====
section
/-! DEFINITION. What the builder of a block fixes (the SFC shift triples, R8 and R22), the response
status codes (R43), and the one free value (the residual word before it is first loaded, R23). -/

namespace Sys2Proof

/-- The triple `(p, q, r)` of an SFC engine of width `w`, fixed when the block is built (R8, R22). -/
structure Pqr (w : Nat) where
  p : BitVec w
  q : BitVec w
  r : BitVec w
deriving DecidableEq, Repr

/-- A triple with which a block can be built: each member in `0 .. W-1` (R8, R22). -/
abbrev Pqr.Legal {w : Nat} (t : Pqr w) : Prop :=
  t.p.toNat < w ∧ t.q.toNat < w ∧ t.r.toNat < w

/-- The spec's default `SFC32_PQR` (R8). -/
def Config.sfc32Pqr : Pqr 32 := ⟨21, 9, 3⟩

/-- The spec's default `SFC64_PQR` (R8). -/
def Config.sfc64Pqr : Pqr 64 := ⟨24, 11, 3⟩

/-- FREE VALUE (log 2). What the residual word `rand` of a `PACK` holds before it is first loaded:
"unspecified; never read before it is first loaded" (R23, R71). It has no body, so nothing can be
proved of it; a running count makes each `PACK` take a fresh one. -/
opaque Config.freeRand : Nat → Word64

/-- The status codes a response can carry (R43). There is no constructor for the code 3, which "is
never produced". -/
inductive Status where
  | ok
  | badOp
  | badOperand
deriving DecidableEq, Repr

/-- The two status bits (R43). -/
def Status.code : Status → BitVec 2
  | .ok => 0
  | .badOp => 1
  | .badOperand => 2

end Sys2Proof
end

