-- ==== Sys2Proof/Machine/State.lean ====
section
/-! DEFINITION. The state of the block as plain data, its reset value, and the reasons a step can stop.
The block has no memory (R25) and no program counter (R17), so the state has neither. -/

namespace Sys2Proof.Machine

/-- The Seiran128 engine's state words (R18). -/
structure Seiran where
  a : Word64
  b : Word64
deriving DecidableEq, Repr

/-- The state words `a b c d` (R19, R20) and the parameter words `p q r` (R22) of an SFC engine of
width `w`. -/
structure Sfc (w : Nat) where
  a : BitVec w
  b : BitVec w
  c : BitVec w
  d : BitVec w
  p : BitVec w
  q : BitVec w
  r : BitVec w
deriving DecidableEq, Repr

/-- The transient state of a `PACK` that is running on an engine of width `w` (R23 (d), R71): its
operands, the residual bit count and word, and the output index. -/
structure PackJob (w : Nat) where
  len : Nat
  nbits : Nat
  filt : Bool
  bits : Nat
  rand : BitVec w
  idx : Nat
deriving DecidableEq, Repr

/-- A running `PACK` and the one engine that supplies its words (R21). -/
inductive Job where
  | seiran (j : PackJob 64)
  | sfc32 (j : PackJob 32)
  | sfc64 (j : PackJob 64)
deriving DecidableEq, Repr

/-- What the block delivers to the host: the lane of output unit number `idx` (R26, R44), or the response
that ends a command (R42). -/
inductive Output where
  | lane (idx : Nat) (value : Word64)
  | response (status : Status) (data : Word64)
deriving DecidableEq, Repr

/-- What the host can do to the block (R115). `present f`: it presents the frame `f` as soon as the block
is ready for it, never earlier (R113, log 5). `reset after`: the reset event comes, `after` steps after the
move before it, whatever the block is doing, so also between two lanes of a `PACK`, or between its last lane and its response
(R108, R109, log 6). `cut f`: it presents `f`, and the reset
comes while that command is being performed, before a lane or the response of it (R109, log 6). -/
inductive HostMove where
  | present (f : Frame)
  | reset (after : Nat)
  | cut (f : Frame)
deriving DecidableEq, Repr

/-- The state. `seiran`, `sfc32`, `sfc64`: the ten state words and six parameter words (R18 to R22).
`job`: the running `PACK`, none when the block is idle (R23, R107). `moves`: the host's moves still to
come (R115, log 5). `out`: all the block has delivered so far, oldest first (R26, R42, log 8). `freeIx`:
which free value the next `PACK` takes (log 3). -/
structure State where
  seiran : Seiran
  sfc32 : Sfc 32
  sfc64 : Sfc 64
  job : Option Job
  moves : List HostMove
  out : List Output
  freeIx : Nat
deriving DecidableEq, Repr

/-- The block has no fault: no command raises an exception (R96), and nothing is treated as one
(93_implementation_defined part 1). The type is empty, so no step of the model can answer a fault. -/
inductive Fault where
deriving DecidableEq, Repr

/-- Why exec would give an instruction no meaning. -/
inductive Refusal where
  /-- Raised by exec for an instruction that has no meaning yet; no arm raises it now (safe). -/
  | notModelled (mnemonic : String)
deriving DecidableEq, Repr

/-- An SFC engine with the given triple and all four state words zero (R22, R24). -/
def Sfc.zeroed {w : Nat} (t : Pqr w) : Sfc w := ⟨0, 0, 0, 0, t.p, t.q, t.r⟩

/-- The machine right after reset (R24, R108): every state word zero, the parameter words at their
construction values (the spec's defaults, R8, log 4), no command running, nothing presented (log 5, log
11) and nothing delivered (log 8); `freeIx` 0 is the model's choice (log 3). -/
def State.reset : State where
  seiran := ⟨0, 0⟩
  sfc32 := Sfc.zeroed Config.sfc32Pqr
  sfc64 := Sfc.zeroed Config.sfc64Pqr
  job := none
  moves := []
  out := []
  freeIx := 0

end Sys2Proof.Machine
end

