-- ==== Sys2Proof/Machine/Ops.lean ====
section
/-! DEFINITION. The shared operations: the engines' steps, the jump and seeding procedures, the packing
procedure, responding, refusing, and reset. The block has no exception to take (R96, R101); `refuse` is
its one abnormal ending (R97). -/

namespace Sys2Proof.Machine

/-- `seiran_step(a, b) = (result, a', b')`; every right-hand side uses the old words (R52). -/
def seiranStep (e : Seiran) : Word64 × Seiran :=
  (rotl ((e.a + e.b) * seiranMul) seiranRotOut + e.a,
   { a := e.a ^^^ rotl e.b seiranRotB, b := e.a ^^^ shl e.b seiranShlB })

/-- Seeding by two multiply-adds; `b` is computed from the new `a` (R53). -/
def seiranInit (seed : Word64) : Seiran :=
  { a := seed * C1 + C2, b := (seed * C1 + C2) * C1 + C2 }

/-- Bit number `i` of a jump polynomial: low word first, bit 0 first inside a word (R30, R55, log 15). -/
def polyBit (lo hi : Word64) (i : Nat) : Bool :=
  if i < 64 then lo.getLsbD (i % 64) else hi.getLsbD (i % 64)

/-- `n` iterations of the loop of R55 from bit `i`, with accumulators `t` and engine state `e`. -/
def seiranJumpLoop (lo hi : Word64) : Nat → Nat → Seiran → Seiran → Seiran
  | 0, _, t, _ => t
  | n + 1, i, t, e =>
    seiranJumpLoop lo hi n (i + 1)
      (if polyBit lo hi i then { a := t.a ^^^ e.a, b := t.b ^^^ e.b } else t)
      (seiranStep e).2

/-- `seiran_jump(poly_lo, poly_hi)`: 128 iterations from zero accumulators (R55). -/
def seiranJump (lo hi : Word64) (e : Seiran) : Seiran :=
  seiranJumpLoop lo hi 128 0 { a := 0, b := 0 } e

/-- `sfc_step(W, p, q, r; a, b, c, d) = (tmp, a', b', c', d')` (R60). -/
def sfcStep {w : Nat} (e : Sfc w) : BitVec w × Sfc w :=
  (e.a + e.b + e.d,
   { e with
     a := e.b ^^^ shr e.b e.q.toNat
     b := e.c + shl e.c e.r.toNat
     c := rotl e.c e.p.toNat + (e.a + e.b + e.d)
     d := e.d + 1 })

/-- `n` steps whose result words are discarded (R61). -/
def sfcWarmup {w : Nat} : Nat → Sfc w → Sfc w
  | 0, e => e
  | n + 1, e => sfcWarmup n (sfcStep e).2

/-- `sfc_init3(U, s1, s2, s3)`: the old state words are not read (R61). -/
def sfcInit3 {w : Nat} (e : Sfc w) (s1 s2 s3 : BitVec w) : Sfc w :=
  sfcWarmup sfcWarmupSteps { e with a := s1, b := s2, c := s3, d := 1 }

/-- The block delivers something to the host. -/
def State.deliver (s : State) (o : List Output) : State := { s with out := s.out ++ o }

/-- `respond(v)`: the command ends with status `OK` and data `v` (R12, R42). -/
def State.respond (s : State) (data : Word64) : State := s.deliver [.response .ok data]

/-- `refuse(status)`: the command ends with a non-zero status and data 0, and nothing else happens (R97). -/
def State.refuse (s : State) (status : Status) : State := s.deliver [.response status 0]

/-- `call SEIRAN.next()` (R12, R52). -/
def State.callSeiran (s : State) : Word64 × State :=
  ((seiranStep s.seiran).1, { s with seiran := (seiranStep s.seiran).2 })

/-- `call SFC32.next()` (R12, R60). -/
def State.callSfc32 (s : State) : Word32 × State :=
  ((sfcStep s.sfc32).1, { s with sfc32 := (sfcStep s.sfc32).2 })

/-- `call SFC64.next()` (R12, R60). -/
def State.callSfc64 (s : State) : Word64 × State :=
  ((sfcStep s.sfc64).1, { s with sfc64 := (sfcStep s.sfc64).2 })

/-- Draw one `SEIRAN` word and respond with a value cut from it. -/
def State.drawSeiran (s : State) (f : Word64 → Word64) : State := s.callSeiran.2.respond (f s.callSeiran.1)

/-- Draw one `SFC32` word and respond with a value cut from it. -/
def State.drawSfc32 (s : State) (f : Word32 → Word64) : State := s.callSfc32.2.respond (f s.callSfc32.1)

/-- Draw one `SFC64` word and respond with a value cut from it. -/
def State.drawSfc64 (s : State) (f : Word64 → Word64) : State := s.callSfc64.2.respond (f s.callSfc64.1)

/-- The first test of the loop body of R71: a fresh word replaces what was left of the old one when fewer
than `nbits` bits remain. `next` is the engine's step and `e` its state. -/
def packLoad {w : Nat} {σ : Type} (next : σ → BitVec w × σ) (e : σ) (j : PackJob w) : σ × PackJob w :=
  if j.bits < j.nbits then ((next e).2, { j with rand := (next e).1, bits := w }) else (e, j)

/-- The rest of the loop body of R71: cut the candidate, and emit it if the predicate accepts it. -/
def packCut {w : Nat} (j : PackJob w) : List Output × PackJob w :=
  let cand := candidate j.nbits j.rand
  let j' := { j with rand := shr j.rand j.nbits, bits := j.bits - j.nbits }
  if accepts j.filt cand.toNat then ([.lane j.idx (zext64 cand)], { j' with idx := j.idx + 1 })
  else ([], j')

/-- One test of the loop of R71 and what follows it: the loop body, or `respond(i)` where the test fails, which
is thus a pass of its own, so that a reset can land between the last lane and the response (R109, log 1). The
engine's state, what is delivered, and what is left to do. -/
def packPass {w : Nat} {σ : Type} (next : σ → BitVec w × σ) (e : σ) (j : PackJob w) :
    σ × List Output × Option (PackJob w) :=
  if j.idx < j.len then
    let loaded := packLoad next e j
    let cut := packCut loaded.2
    (loaded.1, cut.1, some cut.2)
  else (e, [.response .ok (BitVec.ofNat 64 j.idx)], none)

/-- One pass of a running `PACK`: it touches the named engine only (R21). -/
def State.packStep (s : State) : Job → State
  | .seiran j =>
    let r := packPass seiranStep s.seiran j
    { s with seiran := r.1, out := s.out ++ r.2.1, job := r.2.2.map .seiran }
  | .sfc32 j =>
    let r := packPass sfcStep s.sfc32 j
    { s with sfc32 := r.1, out := s.out ++ r.2.1, job := r.2.2.map .sfc32 }
  | .sfc64 j =>
    let r := packPass sfcStep s.sfc64 j
    { s with sfc64 := r.1, out := s.out ++ r.2.1, job := r.2.2.map .sfc64 }

/-- The state in which the loop of R71 is entered: no residual bits, output index 0, and a residual word
that is unspecified, so a free value (R23, log 2). -/
def packBegin (w : Nat) (len : Word64) (nbits : BitVec 7) (filt : Bool) (freeIx : Nat) : PackJob w :=
  { len := len.toNat, nbits := nbits.toNat, filt := filt, bits := 0,
    rand := (Config.freeRand freeIx).setWidth w, idx := 0 }

/-- `PACK` up to the entry of its loop (R72): refused when `nbits >= W`, over at once when `nbits = 0` or
`len = 0`, and otherwise running from the next step on. -/
def State.packStart (s : State) {w : Nat} (mk : PackJob w → Job) (len : Word64) (nbits : BitVec 7)
    (filt : Bool) : State :=
  if w ≤ nbits.toNat then s.refuse .badOperand
  else if nbits = 0 ∨ len = 0 then s.respond 0
  else { s with job := some (mk (packBegin w len nbits filt s.freeIx)), freeIx := s.freeIx + 1 }

/-- The four state words of an SFC engine at zero, its parameter words kept (R24). -/
def Sfc.cleared {w : Nat} (e : Sfc w) : Sfc w := { e with a := 0, b := 0, c := 0, d := 0 }

/-- The reset event (R108, R109): every state word zero, the parameter words kept, a running command ended
with no response, what was delivered stays delivered. -/
def State.hostReset (s : State) : State :=
  { s with seiran := { a := 0, b := 0 }, sfc32 := s.sfc32.cleared, sfc64 := s.sfc64.cleared, job := none }

/-- Building a block with the given triples; a triple with a member of `W` or more is refused, "the model
has no such block" (R8, R22). -/
def construct (t32 : Pqr 32) (t64 : Pqr 64) : Option State :=
  if t32.Legal ∧ t64.Legal then
    some { State.reset with sfc32 := Sfc.zeroed t32, sfc64 := Sfc.zeroed t64 }
  else none

end Sys2Proof.Machine
end

