-- ==== Sys2Proof/Machine/BitPacker.lean ====
section
/-! DEFINITION. The BitPacker commands (43_bitpacker). Each begins its command; `State.packStep` makes the
passes of its loop, one a step (log 1). -/

namespace Sys2Proof.Machine

/-- `SEIRAN.PACK len, nbits, filt` (R73). -/
def execSeiranPack (len : Word64) (nbits : BitVec 7) (filt : Bool) (s : State) :
    Host.Outcome State Fault Refusal :=
  .next (s.packStart .seiran len nbits filt)

/-- `SFC32.PACK len, nbits, filt` (R74). -/
def execSfc32Pack (len : Word64) (nbits : BitVec 7) (filt : Bool) (s : State) :
    Host.Outcome State Fault Refusal :=
  .next (s.packStart .sfc32 len nbits filt)

/-- `SFC64.PACK len, nbits, filt` (R75). -/
def execSfc64Pack (len : Word64) (nbits : BitVec 7) (filt : Bool) (s : State) :
    Host.Outcome State Fault Refusal :=
  .next (s.packStart .sfc64 len nbits filt)

end Sys2Proof.Machine
end

