-- ==== Sys2Proof/Machine/Seiran.lean ====
section
/-! DEFINITION. The Seiran128 engine's commands (41_seiran128) and its word extraction (44_facade_extract). -/

namespace Sys2Proof.Machine

/-- `SEIRAN.NEXT` (R54). -/
def execSeiranNext (s : State) : Host.Outcome State Fault Refusal := .next (s.drawSeiran id)

/-- `SEIRAN.INIT seed` (R53). -/
def execSeiranInit (seed : Word64) (s : State) : Host.Outcome State Fault Refusal :=
  .next ({ s with seiran := seiranInit seed }.respond 0)

/-- `SEIRAN.JUMP32` (R56). -/
def execSeiranJump32 (s : State) : Host.Outcome State Fault Refusal :=
  .next ({ s with seiran := seiranJump jump32Lo jump32Hi s.seiran }.respond 0)

/-- `SEIRAN.JUMP64` (R57). -/
def execSeiranJump64 (s : State) : Host.Outcome State Fault Refusal :=
  .next ({ s with seiran := seiranJump jump64Lo jump64Hi s.seiran }.respond 0)

/-- `SEIRAN.JUMP96` (R58). -/
def execSeiranJump96 (s : State) : Host.Outcome State Fault Refusal :=
  .next ({ s with seiran := seiranJump jump96Lo jump96Hi s.seiran }.respond 0)

/-- `SEIRAN.NEXTBOOL`: 1 when the word is odd (R81). -/
def execSeiranNextBool (s : State) : Host.Outcome State Fault Refusal := .next (s.drawSeiran (lowBits 1))

/-- `SEIRAN.NEXTU8` (R82). -/
def execSeiranNextU8 (s : State) : Host.Outcome State Fault Refusal := .next (s.drawSeiran (lowBits 8))

/-- `SEIRAN.NEXTU16` (R83). -/
def execSeiranNextU16 (s : State) : Host.Outcome State Fault Refusal := .next (s.drawSeiran (lowBits 16))

/-- `SEIRAN.NEXTU32` (R84). -/
def execSeiranNextU32 (s : State) : Host.Outcome State Fault Refusal := .next (s.drawSeiran (lowBits 32))

/-- `SEIRAN.NEXTU64` (R85). -/
def execSeiranNextU64 (s : State) : Host.Outcome State Fault Refusal := .next (s.drawSeiran (lowBits 64))

end Sys2Proof.Machine
end

