-- ==== Sys2Proof/Machine/Sfc32.lean ====
section
/-! DEFINITION. The SFC32 engine's commands (42_sfc) and its word extraction (44_facade_extract). -/

namespace Sys2Proof.Machine

/-- `SFC32.NEXT` (R62). -/
def execSfc32Next (s : State) : Host.Outcome State Fault Refusal := .next (s.drawSfc32 zext64)

/-- `SFC32.INIT3 s1, s2, s3` (R63). -/
def execSfc32Init3 (s1 s2 s3 : Word32) (s : State) : Host.Outcome State Fault Refusal :=
  .next ({ s with sfc32 := sfcInit3 s.sfc32 s1 s2 s3 }.respond 0)

/-- `SFC32.INIT seed`, which is `INIT3 seed, seed, seed` (R64). -/
def execSfc32Init (seed : Word32) (s : State) : Host.Outcome State Fault Refusal :=
  .next ({ s with sfc32 := sfcInit3 s.sfc32 seed seed seed }.respond 0)

/-- `SFC32.INIT_PRE`, which is `INIT` with the default seed (R65). -/
def execSfc32InitPre (s : State) : Host.Outcome State Fault Refusal :=
  .next ({ s with sfc32 := sfcInit3 s.sfc32 sfc32DefaultSeed sfc32DefaultSeed sfc32DefaultSeed }.respond 0)

/-- `SFC32.NEXTBOOL`: 1 when the word is odd (R86). -/
def execSfc32NextBool (s : State) : Host.Outcome State Fault Refusal := .next (s.drawSfc32 (lowBits 1))

/-- `SFC32.NEXTU8` (R87). -/
def execSfc32NextU8 (s : State) : Host.Outcome State Fault Refusal := .next (s.drawSfc32 (lowBits 8))

/-- `SFC32.NEXTU16` (R88). -/
def execSfc32NextU16 (s : State) : Host.Outcome State Fault Refusal := .next (s.drawSfc32 (lowBits 16))

/-- `SFC32.NEXTU32` (R89). -/
def execSfc32NextU32 (s : State) : Host.Outcome State Fault Refusal := .next (s.drawSfc32 (lowBits 32))

/-- `SFC32.NEXTU64`: two words, the first one the low half; one atomic command (R90). -/
def execSfc32NextU64 (s : State) : Host.Outcome State Fault Refusal :=
  let lo := s.callSfc32
  let hi := lo.2.callSfc32
  .next (hi.2.respond (joinHalves hi.1 lo.1))

end Sys2Proof.Machine
end

