-- ==== Sys2Proof/Machine/Sfc64.lean ====
section
/-! DEFINITION. The SFC64 engine's commands (42_sfc) and its word extraction (44_facade_extract). -/

namespace Sys2Proof.Machine

/-- `SFC64.NEXT` (R66). -/
def execSfc64Next (s : State) : Host.Outcome State Fault Refusal := .next (s.drawSfc64 zext64)

/-- `SFC64.INIT3 s1, s2, s3` (R67). -/
def execSfc64Init3 (s1 s2 s3 : Word64) (s : State) : Host.Outcome State Fault Refusal :=
  .next ({ s with sfc64 := sfcInit3 s.sfc64 s1 s2 s3 }.respond 0)

/-- `SFC64.INIT seed`, which is `INIT3 seed, seed, seed` (R68). -/
def execSfc64Init (seed : Word64) (s : State) : Host.Outcome State Fault Refusal :=
  .next ({ s with sfc64 := sfcInit3 s.sfc64 seed seed seed }.respond 0)

/-- `SFC64.INIT_PRE`, which is `INIT` with the default seed (R69). -/
def execSfc64InitPre (s : State) : Host.Outcome State Fault Refusal :=
  .next ({ s with sfc64 := sfcInit3 s.sfc64 sfc64DefaultSeed sfc64DefaultSeed sfc64DefaultSeed }.respond 0)

/-- `SFC64.NEXTBOOL`: 1 when the word is odd (R91). -/
def execSfc64NextBool (s : State) : Host.Outcome State Fault Refusal := .next (s.drawSfc64 (lowBits 1))

/-- `SFC64.NEXTU8` (R92). -/
def execSfc64NextU8 (s : State) : Host.Outcome State Fault Refusal := .next (s.drawSfc64 (lowBits 8))

/-- `SFC64.NEXTU16` (R93). -/
def execSfc64NextU16 (s : State) : Host.Outcome State Fault Refusal := .next (s.drawSfc64 (lowBits 16))

/-- `SFC64.NEXTU32` (R94). -/
def execSfc64NextU32 (s : State) : Host.Outcome State Fault Refusal := .next (s.drawSfc64 (lowBits 32))

/-- `SFC64.NEXTU64` (R95). -/
def execSfc64NextU64 (s : State) : Host.Outcome State Fault Refusal := .next (s.drawSfc64 (lowBits 64))

end Sys2Proof.Machine
end

