-- ==== Sys2Proof/Syntax.lean ====
section
/-! DEFINITION. The commands of the block: one constructor per row of spec/opcode_table.json (R46), and
the pseudo-commands of R51. -/

namespace Sys2Proof

/-- The 31 commands (R39, R46). Operands carry the widths of R39 to R41: an SFC32 seed is a 32-bit word
(R40), `len` 64 bits, `nbits` 7 bits (of which only those below `W` are legal), `filt` one bit. -/
inductive Instr where
  | seiranNext
  | seiranInit (seed : Word64)
  | seiranJump32
  | seiranJump64
  | seiranJump96
  | seiranPack (len : Word64) (nbits : BitVec 7) (filt : Bool)
  | seiranNextBool
  | seiranNextU8
  | seiranNextU16
  | seiranNextU32
  | seiranNextU64
  | sfc32Next
  | sfc32Init (seed : Word32)
  | sfc32Init3 (s1 s2 s3 : Word32)
  | sfc32InitPre
  | sfc32Pack (len : Word64) (nbits : BitVec 7) (filt : Bool)
  | sfc32NextBool
  | sfc32NextU8
  | sfc32NextU16
  | sfc32NextU32
  | sfc32NextU64
  | sfc64Next
  | sfc64Init (seed : Word64)
  | sfc64Init3 (s1 s2 s3 : Word64)
  | sfc64InitPre
  | sfc64Pack (len : Word64) (nbits : BitVec 7) (filt : Bool)
  | sfc64NextBool
  | sfc64NextU8
  | sfc64NextU16
  | sfc64NextU32
  | sfc64NextU64
deriving DecidableEq, Repr

/-- The engine a command names: the one whose state words it reads and writes (R38). -/
def Instr.engine : Instr → Engine
  | .seiranNext | .seiranInit _ | .seiranJump32 | .seiranJump64 | .seiranJump96
  | .seiranPack _ _ _ | .seiranNextBool | .seiranNextU8 | .seiranNextU16 | .seiranNextU32
  | .seiranNextU64 => .seiran
  | .sfc32Next | .sfc32Init _ | .sfc32Init3 _ _ _ | .sfc32InitPre | .sfc32Pack _ _ _
  | .sfc32NextBool | .sfc32NextU8 | .sfc32NextU16 | .sfc32NextU32 | .sfc32NextU64 => .sfc32
  | .sfc64Next | .sfc64Init _ | .sfc64Init3 _ _ _ | .sfc64InitPre | .sfc64Pack _ _ _
  | .sfc64NextBool | .sfc64NextU8 | .sfc64NextU16 | .sfc64NextU32 | .sfc64NextU64 => .sfc64

/-- The three `PACK` commands, the only ones that can go on after the step that takes them (log 1). -/
def Instr.isPack : Instr → Bool
  | .seiranPack _ _ _ | .sfc32Pack _ _ _ | .sfc64Pack _ _ _ => true
  | .seiranNext | .seiranInit _ | .seiranJump32 | .seiranJump64 | .seiranJump96
  | .seiranNextBool | .seiranNextU8 | .seiranNextU16 | .seiranNextU32 | .seiranNextU64
  | .sfc32Next | .sfc32Init _ | .sfc32Init3 _ _ _ | .sfc32InitPre
  | .sfc32NextBool | .sfc32NextU8 | .sfc32NextU16 | .sfc32NextU32 | .sfc32NextU64
  | .sfc64Next | .sfc64Init _ | .sfc64Init3 _ _ _ | .sfc64InitPre
  | .sfc64NextBool | .sfc64NextU8 | .sfc64NextU16 | .sfc64NextU32 | .sfc64NextU64 => false

/-- `PACK` on the named engine. -/
def Instr.pack : Engine → Word64 → BitVec 7 → Bool → Instr
  | .seiran => .seiranPack
  | .sfc32 => .sfc32Pack
  | .sfc64 => .sfc64Pack

/-- The pseudo-command `U.NEXTARRAY len` (R51). -/
def Instr.nextArray (u : Engine) (len : Word64) : Instr := Instr.pack u len 8 false

/-- The pseudo-command `U.NEXTBLOB len`: the same frame as `NEXTARRAY` (R51). -/
def Instr.nextBlob (u : Engine) (len : Word64) : Instr := Instr.pack u len 8 false

/-- The pseudo-command `U.NEXTTEXT len` (R51); the UTF-8 decode is outside the block (R6). -/
def Instr.nextText (u : Engine) (len : Word64) : Instr := Instr.pack u len 7 true

end Sys2Proof
end

