-- ==== Sys2Proof/Machine/Dispatch.lean ====
section
/-! DEFINITION. One arm per command, each a direct call of its meaning. -/

namespace Sys2Proof.Machine

def exec (i : Instr) (s : State) : Host.Outcome State Fault Refusal :=
  match i with
  | .seiranNext => Sys2Proof.Machine.execSeiranNext s
  | .seiranInit seed => Sys2Proof.Machine.execSeiranInit seed s
  | .seiranJump32 => Sys2Proof.Machine.execSeiranJump32 s
  | .seiranJump64 => Sys2Proof.Machine.execSeiranJump64 s
  | .seiranJump96 => Sys2Proof.Machine.execSeiranJump96 s
  | .seiranPack len nbits filt => Sys2Proof.Machine.execSeiranPack len nbits filt s
  | .seiranNextBool => Sys2Proof.Machine.execSeiranNextBool s
  | .seiranNextU8 => Sys2Proof.Machine.execSeiranNextU8 s
  | .seiranNextU16 => Sys2Proof.Machine.execSeiranNextU16 s
  | .seiranNextU32 => Sys2Proof.Machine.execSeiranNextU32 s
  | .seiranNextU64 => Sys2Proof.Machine.execSeiranNextU64 s
  | .sfc32Next => Sys2Proof.Machine.execSfc32Next s
  | .sfc32Init seed => Sys2Proof.Machine.execSfc32Init seed s
  | .sfc32Init3 s1 s2 s3 => Sys2Proof.Machine.execSfc32Init3 s1 s2 s3 s
  | .sfc32InitPre => Sys2Proof.Machine.execSfc32InitPre s
  | .sfc32Pack len nbits filt => Sys2Proof.Machine.execSfc32Pack len nbits filt s
  | .sfc32NextBool => Sys2Proof.Machine.execSfc32NextBool s
  | .sfc32NextU8 => Sys2Proof.Machine.execSfc32NextU8 s
  | .sfc32NextU16 => Sys2Proof.Machine.execSfc32NextU16 s
  | .sfc32NextU32 => Sys2Proof.Machine.execSfc32NextU32 s
  | .sfc32NextU64 => Sys2Proof.Machine.execSfc32NextU64 s
  | .sfc64Next => Sys2Proof.Machine.execSfc64Next s
  | .sfc64Init seed => Sys2Proof.Machine.execSfc64Init seed s
  | .sfc64Init3 s1 s2 s3 => Sys2Proof.Machine.execSfc64Init3 s1 s2 s3 s
  | .sfc64InitPre => Sys2Proof.Machine.execSfc64InitPre s
  | .sfc64Pack len nbits filt => Sys2Proof.Machine.execSfc64Pack len nbits filt s
  | .sfc64NextBool => Sys2Proof.Machine.execSfc64NextBool s
  | .sfc64NextU8 => Sys2Proof.Machine.execSfc64NextU8 s
  | .sfc64NextU16 => Sys2Proof.Machine.execSfc64NextU16 s
  | .sfc64NextU32 => Sys2Proof.Machine.execSfc64NextU32 s
  | .sfc64NextU64 => Sys2Proof.Machine.execSfc64NextU64 s

end Sys2Proof.Machine
end

