-- ==== Sys2Proof/WellFormed.lean ====
section
/-! DEFINITION. Which commands are legal: the operand checks that the syntax does not already make. -/

namespace Sys2Proof

/-- A command with legal operands. The operand widths of `Instr` leave one check: `PACK` with
`nbits >= W` is refused (R48 (d), R72). -/
def Instr.wellFormed : Instr → Bool
  | .seiranPack _ nbits _ => decide (nbits.toNat < Engine.seiran.width)
  | .sfc32Pack _ nbits _ => decide (nbits.toNat < Engine.sfc32.width)
  | .sfc64Pack _ nbits _ => decide (nbits.toNat < Engine.sfc64.width)
  | .seiranNext | .seiranInit _ | .seiranJump32 | .seiranJump64 | .seiranJump96
  | .seiranNextBool | .seiranNextU8 | .seiranNextU16 | .seiranNextU32 | .seiranNextU64
  | .sfc32Next | .sfc32Init _ | .sfc32Init3 _ _ _ | .sfc32InitPre
  | .sfc32NextBool | .sfc32NextU8 | .sfc32NextU16 | .sfc32NextU32 | .sfc32NextU64
  | .sfc64Next | .sfc64Init _ | .sfc64Init3 _ _ _ | .sfc64InitPre
  | .sfc64NextBool | .sfc64NextU8 | .sfc64NextU16 | .sfc64NextU32 | .sfc64NextU64 => true

end Sys2Proof
end

