-- ==== Sys2Proof/Decode.lean ====
section
/-! DEFINITION. The frame decoder of R49, total on all 2^200 frames and rejecting by name, and the
encoder written from the same map (R37 to R41, R46). -/

namespace Sys2Proof

/-- The opcode byte, frame bits [7:0] (R37). -/
def Frame.op (f : Frame) : BitVec 8 := f.extractLsb' 0 8

/-- The first argument field, frame bits [71:8] (R37). -/
def Frame.arg0 (f : Frame) : Word64 := f.extractLsb' 8 64

/-- The second argument field, frame bits [135:72] (R37). -/
def Frame.arg1 (f : Frame) : Word64 := f.extractLsb' 72 64

/-- The third argument field, frame bits [199:136] (R37). -/
def Frame.arg2 (f : Frame) : Word64 := f.extractLsb' 136 64

/-- `frame = {arg2, arg1, arg0, op}` (R37). -/
def Frame.ofFields (arg2 arg1 arg0 : Word64) (op : BitVec 8) : Frame := arg2 ++ arg1 ++ arg0 ++ op

/-- Why a frame is not performed (R97, R98). A refused frame is no stop of the machine: it ends with a
response and changes nothing (safe). -/
inductive Reject where
  | badOp        -- the opcode is reserved (R47)
  | badOperand   -- an operand or a must-be-zero field is illegal (R48)
deriving DecidableEq, Repr

/-- The status a rejected frame is answered with (R43). -/
def Reject.status : Reject → Status
  | .badOp => .badOp
  | .badOperand => .badOperand

/-- A command without operands: every argument field must be zero (R39, R48 (a)). -/
def decodeNone (f : Frame) (i : Instr) : Except Reject Instr :=
  if f.arg0 = 0 ∧ f.arg1 = 0 ∧ f.arg2 = 0 then .ok i else .error .badOperand

/-- A 64-bit seed in `arg0`, the other fields zero (R39, R48 (a)). -/
def decodeSeed64 (f : Frame) (mk : Word64 → Instr) : Except Reject Instr :=
  if f.arg1 = 0 ∧ f.arg2 = 0 then .ok (mk f.arg0) else .error .badOperand

/-- The SFC32 rule for an operand field: bits [63:32] must be zero; never truncated silently (R40). -/
def fits32 (v : Word64) : Bool := v.extractLsb' 32 32 == 0

/-- A 32-bit seed in `arg0`, the other fields zero (R39, R40, R48 (a), (b)). -/
def decodeSeed32 (f : Frame) (mk : Word32 → Instr) : Except Reject Instr :=
  if fits32 f.arg0 ∧ f.arg1 = 0 ∧ f.arg2 = 0 then .ok (mk (f.arg0.setWidth 32)) else .error .badOperand

/-- Three 32-bit seeds (R39, R40, R48 (b)). -/
def decodeSeeds32 (f : Frame) (mk : Word32 → Word32 → Word32 → Instr) : Except Reject Instr :=
  if fits32 f.arg0 ∧ fits32 f.arg1 ∧ fits32 f.arg2 then
    .ok (mk (f.arg0.setWidth 32) (f.arg1.setWidth 32) (f.arg2.setWidth 32))
  else .error .badOperand

/-- `nbits = arg1[6:0]` (R41). -/
def packNbits (arg1 : Word64) : BitVec 7 := arg1.extractLsb' 0 7

/-- `filt = arg1[8]` (R41). -/
def packFilt (arg1 : Word64) : Bool := arg1.getLsbD 8

/-- `arg1[7]` and `arg1[63:9]`, which must be zero (R41, R48 (c)). -/
def packReservedZero (arg1 : Word64) : Bool :=
  !arg1.getLsbD 7 && arg1.extractLsb' 9 55 == 0

/-- `PACK` for an engine of width `W`: `len`, `nbits`, `filt`; reserved bits and `arg2` zero;
`nbits < W` (R39, R41, R48). -/
def decodePack (f : Frame) (W : Nat) (mk : Word64 → BitVec 7 → Bool → Instr) : Except Reject Instr :=
  if packReservedZero f.arg1 ∧ f.arg2 = 0 ∧ (packNbits f.arg1).toNat < W then
    .ok (mk f.arg0 (packNbits f.arg1) (packFilt f.arg1))
  else .error .badOperand

/-- The decode procedure of R49: (1) look the opcode up in the map of R46, a reserved one is `badOp`
whatever its arguments hold (R47); (2) check the fields (R48); (3) the command. -/
def decode (f : Frame) : Except Reject Instr :=
  match f.op with
  | 0x00#8 => decodeNone f .seiranNext
  | 0x01#8 => decodeSeed64 f .seiranInit
  | 0x04#8 => decodeNone f .seiranJump32
  | 0x05#8 => decodeNone f .seiranJump64
  | 0x06#8 => decodeNone f .seiranJump96
  | 0x08#8 => decodePack f 64 .seiranPack
  | 0x09#8 => decodeNone f .seiranNextBool
  | 0x0A#8 => decodeNone f .seiranNextU8
  | 0x0B#8 => decodeNone f .seiranNextU16
  | 0x0C#8 => decodeNone f .seiranNextU32
  | 0x0D#8 => decodeNone f .seiranNextU64
  | 0x40#8 => decodeNone f .sfc32Next
  | 0x41#8 => decodeSeed32 f .sfc32Init
  | 0x42#8 => decodeSeeds32 f .sfc32Init3
  | 0x43#8 => decodeNone f .sfc32InitPre
  | 0x48#8 => decodePack f 32 .sfc32Pack
  | 0x49#8 => decodeNone f .sfc32NextBool
  | 0x4A#8 => decodeNone f .sfc32NextU8
  | 0x4B#8 => decodeNone f .sfc32NextU16
  | 0x4C#8 => decodeNone f .sfc32NextU32
  | 0x4D#8 => decodeNone f .sfc32NextU64
  | 0x80#8 => decodeNone f .sfc64Next
  | 0x81#8 => decodeSeed64 f .sfc64Init
  | 0x82#8 => .ok (.sfc64Init3 f.arg0 f.arg1 f.arg2)
  | 0x83#8 => decodeNone f .sfc64InitPre
  | 0x88#8 => decodePack f 64 .sfc64Pack
  | 0x89#8 => decodeNone f .sfc64NextBool
  | 0x8A#8 => decodeNone f .sfc64NextU8
  | 0x8B#8 => decodeNone f .sfc64NextU16
  | 0x8C#8 => decodeNone f .sfc64NextU32
  | 0x8D#8 => decodeNone f .sfc64NextU64
  | _ => .error .badOp

/-- `arg1 = nbits + 256 * filt` (R73 to R75). -/
def packArg1 (nbits : BitVec 7) (filt : Bool) : Word64 :=
  nbits.setWidth 64 + (if filt then 256 else 0)

/-- The frame of a `PACK` (R41, R73 to R75). -/
def packFrame (op : BitVec 8) (len : Word64) (nbits : BitVec 7) (filt : Bool) : Frame :=
  Frame.ofFields 0 (packArg1 nbits filt) len op

/-- The frame of a command: its opcode byte (R46), its operands in their fields (R39), zero in the rest. -/
def encode : Instr → Frame
  | .seiranNext => Frame.ofFields 0 0 0 0x00
  | .seiranInit seed => Frame.ofFields 0 0 seed 0x01
  | .seiranJump32 => Frame.ofFields 0 0 0 0x04
  | .seiranJump64 => Frame.ofFields 0 0 0 0x05
  | .seiranJump96 => Frame.ofFields 0 0 0 0x06
  | .seiranPack len nbits filt => packFrame 0x08 len nbits filt
  | .seiranNextBool => Frame.ofFields 0 0 0 0x09
  | .seiranNextU8 => Frame.ofFields 0 0 0 0x0A
  | .seiranNextU16 => Frame.ofFields 0 0 0 0x0B
  | .seiranNextU32 => Frame.ofFields 0 0 0 0x0C
  | .seiranNextU64 => Frame.ofFields 0 0 0 0x0D
  | .sfc32Next => Frame.ofFields 0 0 0 0x40
  | .sfc32Init seed => Frame.ofFields 0 0 (seed.setWidth 64) 0x41
  | .sfc32Init3 s1 s2 s3 => Frame.ofFields (s3.setWidth 64) (s2.setWidth 64) (s1.setWidth 64) 0x42
  | .sfc32InitPre => Frame.ofFields 0 0 0 0x43
  | .sfc32Pack len nbits filt => packFrame 0x48 len nbits filt
  | .sfc32NextBool => Frame.ofFields 0 0 0 0x49
  | .sfc32NextU8 => Frame.ofFields 0 0 0 0x4A
  | .sfc32NextU16 => Frame.ofFields 0 0 0 0x4B
  | .sfc32NextU32 => Frame.ofFields 0 0 0 0x4C
  | .sfc32NextU64 => Frame.ofFields 0 0 0 0x4D
  | .sfc64Next => Frame.ofFields 0 0 0 0x80
  | .sfc64Init seed => Frame.ofFields 0 0 seed 0x81
  | .sfc64Init3 s1 s2 s3 => Frame.ofFields s3 s2 s1 0x82
  | .sfc64InitPre => Frame.ofFields 0 0 0 0x83
  | .sfc64Pack len nbits filt => packFrame 0x88 len nbits filt
  | .sfc64NextBool => Frame.ofFields 0 0 0 0x89
  | .sfc64NextU8 => Frame.ofFields 0 0 0 0x8A
  | .sfc64NextU16 => Frame.ofFields 0 0 0 0x8B
  | .sfc64NextU32 => Frame.ofFields 0 0 0 0x8C
  | .sfc64NextU64 => Frame.ofFields 0 0 0 0x8D

/-- The frame whose low `nbits` bits are those of `w`, the bits above them zero (log 12). -/
def tableFrame (nbits w : Nat) : Frame := BitVec.ofNat 200 (w % 2 ^ nbits)

/-- What the decoder reads from that frame. -/
def decodeTableWord (nbits w : Nat) : Option Instr := (decode (tableFrame nbits w)).toOption

end Sys2Proof
end

