-- ==== Sys2Proof/Machine/Sequencer.lean ====
section
/-! DEFINITION. The command sequencer: which of the host's moves the block acts on next (R17, R113, R115). -/

namespace Sys2Proof.Machine

/-- What one step is for: performing a command on a state, or something that needs no command. -/
inductive Turn where
  | perform (i : Instr) (s : State)
  | done (s : State)
deriving DecidableEq, Repr

/-- The block left to itself: a running `PACK` makes one pass (R71), an idle block stays as it is (R107,
log 7). -/
def State.advance (s : State) : State :=
  match s.job with
  | some j => s.packStep j
  | none => s

/-- The block takes a frame: it is performed or refused, never both (R49, R97, R100). -/
def State.takeFrame (s : State) (f : Frame) : Turn :=
  match decode f with
  | .ok i => .perform i s
  | .error e => .done (s.refuse e.status)

/-- What the block does next. While a command runs it takes no other frame (R112, R113); a reset lands
whatever it is doing (R109). -/
def State.turn (s : State) : Turn :=
  match s.moves with
  | [] => .done s.advance
  | .reset 0 :: ms => .done { s with moves := ms }.hostReset
  | .reset (n + 1) :: ms => .done { s with moves := .reset n :: ms }.advance
  | .present f :: ms => if s.job.isSome then .done s.advance else { s with moves := ms }.takeFrame f
  | .cut _ :: ms => if s.job.isSome then .done s.advance else .done { s with moves := ms }.hostReset

end Sys2Proof.Machine
end

