-- ==== Sys2Proof/Machine/Step.lean ====
section
/-! DEFINITION. One step of the block. -/

namespace Sys2Proof.Machine

/-- One step: a whole command (for `PACK` one pass of the loop, or its response, at a time), a refused frame, a
reset, or nothing (R17, R33, R71, R97, R108). -/
def step (s : State) : Host.Outcome State Fault Refusal :=
  match s.turn with
  | .perform i s' => exec i s'
  | .done s' => .next s'

/-- `s` with the idle block's next frame presented (log 11). -/
def State.withFetchWord (s : State) (nbits w : Nat) : State :=
  { s with job := none, moves := .present (tableFrame nbits w) :: s.moves }

end Sys2Proof.Machine
end

