-- ==== Sys2Proof/Safety.lean ====
section
/-! DEFINITION. The terms in which statements about the block are made: its invariants, the spec's own
arithmetic on natural numbers (R10, R13 to R16, R52, R60), the frame rules (R38 to R48), command sequences, and what a `PACK` delivers
(R77). -/

namespace Sys2Proof.Machine

/-! ## Invariants -/

/-- The shift amounts of an SFC engine are below its width (R8, R22). -/
abbrev Sfc.Legal {w : Nat} (e : Sfc w) : Prop := e.p.toNat < w ∧ e.q.toNat < w ∧ e.r.toNat < w

/-- The parameter words of an SFC engine. -/
def Sfc.pqr {w : Nat} (e : Sfc w) : Pqr w := ⟨e.p, e.q, e.r⟩

/-- A running `PACK` is inside its loop: legal operands (R71, R72), at most `len` units emitted (`len` when only
the response is still to come), and a residual word with nothing above its `bits` residual bits once it has been loaded (R23, R71). -/
abbrev PackJob.Ok {w : Nat} (j : PackJob w) : Prop :=
  1 ≤ j.nbits ∧ j.nbits < w ∧ j.idx ≤ j.len ∧ j.len < 2 ^ 64 ∧ j.bits ≤ w ∧
    (j.bits = 0 ∨ j.rand.toNat < 2 ^ j.bits)

/-- `PackJob.Ok` of the job of whichever engine runs it. -/
def Job.ok : Job → Bool
  | .seiran j => decide j.Ok
  | .sfc32 j => decide j.Ok
  | .sfc64 j => decide j.Ok

/-- How many units a running `PACK` has emitted. -/
def Job.idx : Job → Nat
  | .seiran j => j.idx
  | .sfc32 j => j.idx
  | .sfc64 j => j.idx

/-- The engine that supplies the words of a running `PACK` (R21). -/
def Job.engine : Job → Engine
  | .seiran _ => .seiran
  | .sfc32 _ => .sfc32
  | .sfc64 _ => .sfc64

/-- Two running `PACK` alike in all but a residual word that the next pass overwrites unread (R23, log 2). -/
abbrev PackJob.Alike {w : Nat} (j j' : PackJob w) : Prop :=
  j' = { j with rand := j'.rand } ∧ (j.rand = j'.rand ∨ j.bits < j.nbits)

/-- `PackJob.Alike`, on the same engine or with no `PACK` running. -/
def jobsAlike : Option Job → Option Job → Prop
  | none, none => True
  | some (.seiran j), some (.seiran j') => j.Alike j'
  | some (.sfc32 j), some (.sfc32 j') => j.Alike j'
  | some (.sfc64 j), some (.sfc64 j') => j.Alike j'
  | _, _ => False

/-- Two states agree on all words of one engine. -/
def State.agreeOn (u : Engine) (s s' : State) : Prop :=
  match u with
  | .seiran => s.seiran = s'.seiran
  | .sfc32 => s.sfc32 = s'.sfc32
  | .sfc64 => s.sfc64 = s'.sfc64

/-- The state invariant: legal shift amounts, and a running job, if any, inside its loop. -/
abbrev State.Inv (s : State) : Prop :=
  s.sfc32.Legal ∧ s.sfc64.Legal ∧ s.job.all Job.ok = true

/-- The lanes of a stream are numbered as R26 says: each is number 0 or the successor of the lane just
before it; `n` is the number that may come first, besides 0. -/
def laneOrder : Nat → List Output → Bool
  | _, [] => true
  | n, .lane i _ :: r => (i == 0 || i == n) && laneOrder (i + 1) r
  | _, .response _ _ :: r => laneOrder 0 r

/-- The number after the last lane of a stream, 0 if it ends otherwise. -/
def laneNext : Nat → List Output → Nat
  | n, [] => n
  | _, .lane i _ :: r => laneNext (i + 1) r
  | _, .response _ _ :: r => laneNext 0 r

/-- The output stream is in order, and a running `PACK` will go on where it left it. -/
abbrev State.StreamOk (s : State) : Prop :=
  laneOrder 0 s.out = true ∧ s.job.all (fun j => j.idx == 0 || j.idx == laneNext 0 s.out) = true

/-! ## The spec's arithmetic on natural numbers -/

/-- `add_W` (R13). -/
def Spec.add (W x y : Nat) : Nat := (x + y) % 2 ^ W

/-- `mul_W` (R14). -/
def Spec.mul (W x y : Nat) : Nat := (x * y) % 2 ^ W

/-- `shl_W` (R16). -/
def Spec.shl (W x k : Nat) : Nat := (x * 2 ^ k) % 2 ^ W

/-- `shr_W` (R16). -/
def Spec.shr (x k : Nat) : Nat := x / 2 ^ k

/-- `rotl_W` (R16). -/
def Spec.rotl (W x k : Nat) : Nat := if k = 0 then x else Spec.shl W x k + Spec.shr x (W - k)

/-- `seiran_step` on numbers: the result, then `a'`, `b'` (R52). -/
def Spec.seiranStep (a b : Nat) : Nat × Nat × Nat :=
  (Spec.add 64 (Spec.rotl 64 (Spec.mul 64 (Spec.add 64 a b) 9) 29) a,
   a ^^^ Spec.rotl 64 b 29, a ^^^ Spec.shl 64 b 9)

/-- `sfc_step` on numbers: `tmp`, then `a'`, `b'`, `c'`, `d'` (R60). -/
def Spec.sfcStep (W p q r a b c d : Nat) : Nat × Nat × Nat × Nat × Nat :=
  let tmp := (a + b + d) % 2 ^ W
  (tmp, b ^^^ Spec.shr b q, Spec.add W c (Spec.shl W c r), Spec.add W (Spec.rotl W c p) tmp, Spec.add W d 1)

/-! ## The spec's frame rules on numbers -/

/-- The `unit` field of an opcode, its bits [7:6] (R38). -/
def Spec.unitOf (op : BitVec 8) : Nat := op.toNat / 64

/-- The `funct` field of an opcode, its bits [3:0] (R38). -/
def Spec.functOf (op : BitVec 8) : Nat := op.toNat % 16

/-- The reserved opcodes as R47 lists them. -/
def Spec.reservedOp (op : BitVec 8) : Bool :=
  op.toNat / 16 % 4 != 0 || Spec.unitOf op == 3 || [7, 14, 15].contains (Spec.functOf op) ||
    Spec.unitOf op == 0 && [2, 3].contains (Spec.functOf op) ||
    [1, 2].contains (Spec.unitOf op) && [4, 5, 6].contains (Spec.functOf op)

/-- R48 (a): an argument field that R39 marks unused is not zero. -/
abbrev Spec.unusedNotZero (f : Frame) : Prop :=
  (f.arg0 ≠ 0 ∧ Spec.functOf f.op ∉ [1, 2, 8]) ∨ (f.arg1 ≠ 0 ∧ Spec.functOf f.op ∉ [2, 8]) ∨
    (f.arg2 ≠ 0 ∧ Spec.functOf f.op ≠ 2)

/-- R48 (b): bits [63:32] of an SFC32 seed field are not zero. -/
abbrev Spec.seedTooWide (f : Frame) : Prop :=
  Spec.unitOf f.op = 1 ∧
    ((Spec.functOf f.op ∈ [1, 2] ∧ 2 ^ 32 ≤ f.arg0.toNat) ∨
      (Spec.functOf f.op = 2 ∧ (2 ^ 32 ≤ f.arg1.toNat ∨ 2 ^ 32 ≤ f.arg2.toNat)))

/-- R48 (c): a reserved bit of the `arg1` field of a `PACK` is not zero. -/
abbrev Spec.packReservedSet (f : Frame) : Prop :=
  Spec.functOf f.op = 8 ∧ (f.arg1.toNat / 2 ^ 7 % 2 = 1 ∨ f.arg1.toNat / 2 ^ 9 ≠ 0)

/-- R48 (d): a `PACK` with `nbits >= W`. -/
abbrev Spec.nbitsTooWide (f : Frame) : Prop :=
  Spec.functOf f.op = 8 ∧ (if Spec.unitOf f.op = 1 then 32 else 64) ≤ f.arg1.toNat % 2 ^ 7

/-- `i` is the command without operands whose opcode is `op` (R39, R48 (a)). -/
def Spec.NoOperands (op : BitVec 8) (i : Instr) : Prop :=
  encode i = Frame.ofFields 0 0 0 op ∧
  ∀ f : Frame, f.op = op →
    decode f = if f.arg0 = 0 ∧ f.arg1 = 0 ∧ f.arg2 = 0 then .ok i else .error .badOperand

/-- `mk` is the command with one 64-bit seed whose opcode is `op` (R39, R48 (a)). -/
def Spec.OneSeed64 (op : BitVec 8) (mk : Word64 → Instr) : Prop :=
  (∀ seed, encode (mk seed) = Frame.ofFields 0 0 seed op) ∧
  ∀ f : Frame, f.op = op →
    decode f = if f.arg1 = 0 ∧ f.arg2 = 0 then .ok (mk f.arg0) else .error .badOperand

/-- `mk` is the command with three 64-bit seeds whose opcode is `op`; no frame of it is refused (R39, R67). -/
def Spec.ThreeSeeds64 (op : BitVec 8) (mk : Word64 → Word64 → Word64 → Instr) : Prop :=
  (∀ s1 s2 s3, encode (mk s1 s2 s3) = Frame.ofFields s3 s2 s1 op) ∧
  ∀ f : Frame, f.op = op → decode f = .ok (mk f.arg0 f.arg1 f.arg2)

/-- `mk` is the command with one 32-bit seed whose opcode is `op` (R39, R40, R48). -/
def Spec.OneSeed32 (op : BitVec 8) (mk : Word32 → Instr) : Prop :=
  (∀ seed, encode (mk seed) = Frame.ofFields 0 0 (BitVec.ofNat 64 seed.toNat) op) ∧
  ∀ f : Frame, f.op = op →
    decode f = if f.arg0.toNat < 2 ^ 32 ∧ f.arg1 = 0 ∧ f.arg2 = 0
      then .ok (mk (BitVec.ofNat 32 f.arg0.toNat)) else .error .badOperand

/-- `mk` is the command with three 32-bit seeds whose opcode is `op` (R39, R40, R48). -/
def Spec.ThreeSeeds32 (op : BitVec 8) (mk : Word32 → Word32 → Word32 → Instr) : Prop :=
  (∀ s1 s2 s3, encode (mk s1 s2 s3) =
    Frame.ofFields (BitVec.ofNat 64 s3.toNat) (BitVec.ofNat 64 s2.toNat) (BitVec.ofNat 64 s1.toNat) op) ∧
  ∀ f : Frame, f.op = op →
    decode f = if f.arg0.toNat < 2 ^ 32 ∧ f.arg1.toNat < 2 ^ 32 ∧ f.arg2.toNat < 2 ^ 32
      then .ok (mk (BitVec.ofNat 32 f.arg0.toNat) (BitVec.ofNat 32 f.arg1.toNat)
        (BitVec.ofNat 32 f.arg2.toNat)) else .error .badOperand

/-- `mk` is the `PACK` of an engine of width `W` whose opcode is `op`: `arg0 = len`,
`arg1 = nbits + 256 * filt`, `arg2 = 0` (R41, R48, R73 to R75). -/
def Spec.PackOperands (op : BitVec 8) (W : Nat) (mk : Word64 → BitVec 7 → Bool → Instr) : Prop :=
  (∀ len nbits filt, encode (mk len nbits filt) =
    Frame.ofFields 0 (BitVec.ofNat 64 (nbits.toNat + 256 * filt.toNat)) len op) ∧
  ∀ f : Frame, f.op = op →
    decode f =
      if f.arg1.toNat / 2 ^ 7 % 2 = 0 ∧ f.arg1.toNat / 2 ^ 9 = 0 ∧ f.arg2 = 0 ∧ f.arg1.toNat % 2 ^ 7 < W
      then .ok (mk f.arg0 (BitVec.ofNat 7 f.arg1.toNat) (decide (f.arg1.toNat / 2 ^ 8 % 2 = 1)))
      else .error .badOperand

/-! ## Engines as word sources -/

/-- The state part `T` of the Seiran step (R59 item 1). -/
def seiranT (e : Seiran) : Seiran := (seiranStep e).2

/-- Exclusive or of two Seiran states, word by word (R59 item 1). -/
def Seiran.xor (x y : Seiran) : Seiran := { a := x.a ^^^ y.a, b := x.b ^^^ y.b }

/-- The engine after `n` steps. -/
def stepsOf {w : Nat} {σ : Type} (next : σ → BitVec w × σ) : Nat → σ → σ
  | 0, e => e
  | n + 1, e => stepsOf next n (next e).2

/-- Word number `n` (from 0) an engine will produce. -/
def wordOf {w : Nat} {σ : Type} (next : σ → BitVec w × σ) (e : σ) (n : Nat) : BitVec w :=
  (next (stepsOf next n e)).1

/-! ## What a `PACK` delivers -/

/-- Candidate number `n` (from 0) of a `PACK`: with `k = floor(W / nbits)` candidates to a word, bits
`[(j+1)*nbits-1 : j*nbits]` of word number `floor(n / k)`, `j = n mod k` (R32, R77). -/
def candOf {w : Nat} {σ : Type} (next : σ → BitVec w × σ) (e : σ) (nbits n : Nat) : Nat :=
  (wordOf next e (n / (w / nbits))).toNat / 2 ^ (n % (w / nbits) * nbits) % 2 ^ nbits

/-- The accepted ones among the first `n` candidates, in order (R71, R76). -/
def acceptedOf {w : Nat} {σ : Type} (next : σ → BitVec w × σ) (e : σ) (nbits : Nat) (filt : Bool)
    (n : Nat) : List Nat :=
  ((List.range n).map (candOf next e nbits)).filter (accepts filt)

/-- How many words the first `n` candidates take: `ceil(n / floor(W / nbits))` (R77). -/
def wordsFor (w nbits n : Nat) : Nat := (n + (w / nbits - 1)) / (w / nbits)

/-- Lanes numbered from `i` with the given values (R26). -/
def lanesFrom : Nat → List Nat → List Output
  | _, [] => []
  | i, v :: r => .lane i (BitVec.ofNat 64 v) :: lanesFrom (i + 1) r

/-- The bytes of a number, least significant first. -/
def leBytes : Nat → Nat → List Nat
  | 0, _ => []
  | n + 1, v => v % 256 :: leBytes n (v / 256)

/-! ## Runs -/

/-- The host is not about to reset the block. -/
def State.noReset (s : State) : Bool :=
  match s.moves with
  | .reset _ :: _ => false
  | _ => true

/-- The block is idle (R107). -/
abbrev State.Idle (s : State) : Prop := s.job = none

/-- `n` steps of the block. -/
def steps (n : Nat) (s : State) : Host.Outcome State Fault Refusal := Sys2Proof.core.run n s

/-- Commands performed one after another. -/
def execs : List Instr → State → Host.Outcome State Fault Refusal
  | [], s => .next s
  | i :: is, s =>
    match exec i s with
    | .next t => execs is t
    | .fault r => .fault r
    | .refused r => .refused r

end Sys2Proof.Machine
end

