-- ==== Sys2Proof/Certificates/Slice0/Obligations.lean ====
section
/-! DEFINITION. The statements about the block, for the provers. Each says in its docstring which rules of
spec/ it formalises; "log n" is notes/assumptions/n.md. -/

open Sys2Proof Sys2Proof.Machine

/-! ## Frames -/

/-- Frames written out from R37 and R46 decode to the commands they stand for (vectors V1 to V5, V15 and
one frame of every family). -/
def Obligations.KnownFramesDecode : Prop :=
  decode 0x0000000000000000_0000000000000000_0000000000000191_01 = .ok (.seiranInit 401) ∧
  decode 0x0000000000000000_0000000000000107_000000000000000C_08 = .ok (.seiranPack 12 7 true) ∧
  decode 0x0000000000000000_0000000000000000_0000000000000000_06 = .ok .seiranJump96 ∧
  decode 0x0000000000000000_0000000000000008_0000000000000005_48 = .ok (.sfc32Pack 5 8 false) ∧
  decode 0x0000000000000000_0000000000000000_0000000000000000_4D = .ok .sfc32NextU64 ∧
  decode 0x0000000000000003_0000000000000002_0000000000000001_42 = .ok (.sfc32Init3 1 2 3) ∧
  decode 0x20C6ED6D9D7B8D41_ABF4641A2C71BA49_DB2CD7E7B0F478BE_82 =
    .ok (.sfc64Init3 0xDB2CD7E7B0F478BE 0xABF4641A2C71BA49 0x20C6ED6D9D7B8D41) ∧
  decode 0x0000000000000000_0000000000000100_0000000000000005_88 = .ok (.sfc64Pack 5 0 true)

/-- Decoding the frame of any well-formed command gives the command back, with every operand (R37 to R41,
R46). -/
def Obligations.DecodeEncodeRoundTrip : Prop :=
  ∀ i : Instr, i.wellFormed = true → decode (encode i) = .ok i

/-- A frame that is performed is the frame of its command: unused fields carry nothing, and two different
accepted frames are two different commands (R48, 92 D6). -/
def Obligations.AcceptedFrameIsItsEncoding : Prop :=
  ∀ (f : Frame) (i : Instr), decode f = .ok i → i.wellFormed = true ∧ encode i = f

/-- R47: exactly the listed opcodes are reserved, 225 of them, and a frame with one of them is refused with
`BAD_OP` whatever its argument fields hold. -/
def Obligations.ReservedOpcodesAreBadOp : Prop :=
  (∀ f : Frame, decode f = .error .badOp ↔ Spec.reservedOp f.op = true) ∧
  ((List.range 256).filter (fun n => Spec.reservedOp (BitVec.ofNat 8 n))).length = 225 ∧
  ∀ (s : State) (f : Frame) (ms : List HostMove), s.Idle → s.moves = .present f :: ms →
    Spec.reservedOp f.op = true →
    step s = .next { s with moves := ms, out := s.out ++ [.response .badOp 0] }

/-- R48: a frame with an assigned opcode is refused with `BAD_OPERAND` exactly in the cases (a) to (d);
nothing else is refused. -/
def Obligations.IllegalOperandsAreBadOperand : Prop :=
  ∀ f : Frame, Spec.reservedOp f.op = false →
    (decode f = .error .badOperand ↔
      Spec.unusedNotZero f ∨ Spec.seedTooWide f ∨ Spec.packReservedSet f ∨ Spec.nbitsTooWide f) ∧
    (decode f = .error .badOperand ∨ ∃ i, decode f = .ok i)

/-- R97: a refused frame ends at once with the status and data 0; no state word changes, nothing is emitted,
and the block is ready for the next frame. -/
def Obligations.RefusedFrameChangesNothing : Prop :=
  ∀ (s : State) (f : Frame) (ms : List HostMove) (e : Reject), s.Idle → s.moves = .present f :: ms →
    decode f = .error e →
    (e.status = .badOp ∨ e.status = .badOperand) ∧
    step s = .next { s with moves := ms, out := s.out ++ [.response e.status 0] }

/-- R43: the three status codes, 3 never among them; a step that answers a non-zero status changes no state
word and delivers nothing else. -/
def Obligations.NonzeroStatusMeansNothingChanged : Prop :=
  Status.ok.code = 0 ∧ Status.badOp.code = 1 ∧ Status.badOperand.code = 2 ∧
  (∀ st : Status, st.code ≠ 3) ∧
  ∀ (s t : State) (o : List Output) (st : Status) (d : Word64), step s = .next t → t.out = s.out ++ o →
    .response st d ∈ o → st.code ≠ 0 →
    o = [.response st 0] ∧ t.seiran = s.seiran ∧ t.sfc32 = s.sfc32 ∧ t.sfc64 = s.sfc64

/-! ## Sequencing, reset, the host interface -/

/-- R17, R49: a step of an idle block to which a frame of a command is presented is exec of that command; the
block moves past the frame and adds nothing else. -/
def Obligations.StepRunsDecodedCommand : Prop :=
  ∀ (s : State) (f : Frame) (ms : List HostMove) (i : Instr), s.Idle → s.moves = .present f :: ms →
    decode f = .ok i → step s = exec i { s with moves := ms }

/-- A frame of the opcode table placed before any state is what the very next step performs (log 11, log 12). -/
def Obligations.PlacedFrameRunsNext : Prop :=
  ∀ (s : State) (nbits w : Nat) (i : Instr), decodeTableWord nbits w = some i →
    step (s.withFetchWord nbits w) = exec i { s with job := none }

/-- R96: no command raises an exception, in any state, legal or not: every command and every step of the
block answers a next state. -/
def Obligations.NoCommandFaults : Prop :=
  (∀ (i : Instr) (s : State), ∃ t, exec i s = .next t) ∧ ∀ s : State, ∃ t, step s = .next t

/-- An idle block to which nothing is presented stays as it is (R107; the model's choice, log 7). -/
def Obligations.IdleBlockWaits : Prop :=
  ∀ s : State, s.Idle → s.moves = [] → step s = .next s

/-- R112, R113: while a `PACK` runs the block takes no frame: it stays presented, and the step is one pass of
the `PACK`, or its response (one a step is the model's choice, log 1). -/
def Obligations.BusyBlockTakesNoFrame : Prop :=
  ∀ (s : State) (j : Job), s.job = some j → s.noReset = true →
    step s = .next (s.packStep j) ∧ (s.packStep j).moves = s.moves

/-- R34: frames presented one after another are performed one after another, each seeing all earlier
effects (any sequence of commands but `PACK`, each of which ends in its own step). -/
def Obligations.FramesRunAsCommandsInOrder : Prop :=
  ∀ (is : List Instr) (s : State) (ms : List HostMove), s.Idle →
    (∀ i ∈ is, i.wellFormed = true ∧ i.isPack = false) →
    s.moves = is.map (fun i => .present (encode i)) ++ ms →
    steps is.length s = execs is { s with moves := ms }

/-- R108: the reset event, in any state, running command or not: every state word zero, the parameter words
kept, no command running; nothing is delivered (so a running command gets no response) and nothing taken
back. -/
def Obligations.ResetEventClearsStateWords : Prop :=
  ∀ (s : State) (ms : List HostMove),
    s.moves = .reset 0 :: ms → step s = .next
      { s with
        seiran := { a := 0, b := 0 }
        sfc32 := { a := 0, b := 0, c := 0, d := 0, p := s.sfc32.p, q := s.sfc32.q, r := s.sfc32.r }
        sfc64 := { a := 0, b := 0, c := 0, d := 0, p := s.sfc64.p, q := s.sfc64.q, r := s.sfc64.r }
        job := none
        moves := ms }

/-- R109, R112: a reset that comes after any number of steps ends whatever then runs, a `PACK` that would
never end included; all state words are zero, and units already emitted stay. A reset that cuts a command
just presented leaves zero words, no response and no lane (rests on 92 D17 and log 6). -/
def Obligations.LaterResetEndsAnyCommand : Prop :=
  (∀ (s : State) (f : Frame) (ms : List HostMove), s.Idle → s.moves = .cut f :: ms →
    step s = step { s with moves := .reset 0 :: ms }) ∧
  ∀ (s : State) (n : Nat) (ms : List HostMove), s.moves = .reset n :: ms →
    ∃ t, steps (n + 1) s = .next t ∧ t.job = none ∧ t.moves = ms ∧ t.seiran = { a := 0, b := 0 } ∧
      t.sfc32 = Sfc.zeroed s.sfc32.pqr ∧ t.sfc64 = Sfc.zeroed s.sfc64.pqr ∧ s.out <+: t.out

/-- R24: a block right after reset, built with whatever triples: every state word is zero, the parameter words
are the construction values, no command is running; `State.reset` is such a block (which one: log 4). -/
def Obligations.ResetStateValues : Prop :=
  (∀ (t32 : Pqr 32) (t64 : Pqr 64) (s : State), construct t32 t64 = some s →
    s.seiran = { a := 0, b := 0 } ∧
    s.sfc32 = { a := 0, b := 0, c := 0, d := 0, p := t32.p, q := t32.q, r := t32.r } ∧
    s.sfc64 = { a := 0, b := 0, c := 0, d := 0, p := t64.p, q := t64.q, r := t64.r } ∧
    s.job = none) ∧
  ∃ (t32 : Pqr 32) (t64 : Pqr 64), construct t32 t64 = some State.reset

/-- R8, R22: a block is built exactly with triples whose every member is below its width; any other triple is
refused. `State.reset` is the block built with the spec's default triples (log 4). -/
def Obligations.ConstructionTakesLegalTriplesOnly : Prop :=
  (∀ (t32 : Pqr 32) (t64 : Pqr 64),
    ((t32.p.toNat < 32 ∧ t32.q.toNat < 32 ∧ t32.r.toNat < 32) ∧
      (t64.p.toNat < 64 ∧ t64.q.toNat < 64 ∧ t64.r.toNat < 64) →
      ∃ s, construct t32 t64 = some s) ∧
    (32 ≤ t32.p.toNat ∨ 32 ≤ t32.q.toNat ∨ 32 ≤ t32.r.toNat ∨ 64 ≤ t64.p.toNat ∨ 64 ≤ t64.q.toNat ∨
      64 ≤ t64.r.toNat → construct t32 t64 = none)) ∧
  construct { p := 21, q := 9, r := 3 } { p := 24, q := 11, r := 3 } = some State.reset

/-! ## Invariants -/

/-- Every step keeps the shift amounts legal (R8, R22) and a running `PACK` inside its loop: legal `nbits`,
at most `len` units out, at most `W` residual bits, nothing above them in `rand` (R23, R71). -/
def Obligations.StepKeepsInvariant : Prop :=
  ∀ s t : State, s.Inv → step s = .next t → t.Inv

/-- Every block that can be built meets the invariant and has an output stream in order; so does the reset
state. -/
def Obligations.BuiltBlockMeetsInvariants : Prop :=
  (State.reset.Inv ∧ State.reset.StreamOk) ∧
  ∀ (t32 : Pqr 32) (t64 : Pqr 64) (s : State), construct t32 t64 = some s → s.Inv ∧ s.StreamOk

/-- R26: every step keeps the output stream in order: each lane has number 0 or the number after the lane just
before it (so no number is skipped), and a running `PACK` goes on from 0 or from its last unit. -/
def Obligations.StepKeepsOutputInOrder : Prop :=
  ∀ s t : State, s.StreamOk → step s = .next t → t.StreamOk

/-- R26: what has been delivered is not taken back, by any step. -/
def Obligations.DeliveredOutputStays : Prop :=
  ∀ s t : State, step s = .next t → s.out <+: t.out

/-- R22: the parameter words are constant for the life of the block; no step, reset included, changes one. -/
def Obligations.ParametersNeverChange : Prop :=
  ∀ s t : State, step s = .next t → t.sfc32.pqr = s.sfc32.pqr ∧ t.sfc64.pqr = s.sfc64.pqr

/-- R21: a command, and a pass of a running `PACK`, writes no state word of an engine it does not name; and no
command touches the host's moves. -/
def Obligations.OtherEnginesUntouched : Prop :=
  (∀ (i : Instr) (s t : State), exec i s = .next t →
    (i.engine ≠ .seiran → t.seiran = s.seiran) ∧ (i.engine ≠ .sfc32 → t.sfc32 = s.sfc32) ∧
    (i.engine ≠ .sfc64 → t.sfc64 = s.sfc64) ∧ t.moves = s.moves) ∧
  ∀ s : State,
    (∀ j, (s.packStep (.seiran j)).sfc32 = s.sfc32 ∧ (s.packStep (.seiran j)).sfc64 = s.sfc64) ∧
    (∀ j, (s.packStep (.sfc32 j)).seiran = s.seiran ∧ (s.packStep (.sfc32 j)).sfc64 = s.sfc64) ∧
    ∀ j, (s.packStep (.sfc64 j)).seiran = s.seiran ∧ (s.packStep (.sfc64 j)).sfc32 = s.sfc32

/-- R21, R34: what a command delivers and does to its engine depends on that engine's words alone, not on
anything done to the other engines or delivered before: first of every command as exec performs it (of a `PACK`
with something to do, exec is the entry of its loop, log 1), then of every pass of a running `PACK`, with its
lanes, its response and what is left to do. -/
def Obligations.CommandReadsItsOwnEngineOnly : Prop :=
  (∀ (i : Instr) (s s' : State), s.agreeOn i.engine s' →
    ∃ t t' o, exec i s = .next t ∧ exec i s' = .next t' ∧ t.out = s.out ++ o ∧ t'.out = s'.out ++ o ∧
      t.agreeOn i.engine t' ∧ (jobsAlike s.job s'.job → jobsAlike t.job t'.job)) ∧
  ∀ (j j' : Job) (s s' : State), jobsAlike (some j) (some j') → s.agreeOn j.engine s' →
    ∃ o, (s.packStep j).out = s.out ++ o ∧ (s'.packStep j').out = s'.out ++ o ∧
      (s.packStep j).agreeOn j.engine (s'.packStep j') ∧
      (s.packStep j).job = (s'.packStep j').job

/-- R42: a command other than `PACK` ends in its own step with exactly one response, of status `OK`, and no
lane; `PACK` does the same, with a refusal where `nbits >= W`, or is then running and has delivered nothing (that
a `PACK` with something to do is running after the step that takes it is the model's choice, log 1). -/
def Obligations.OneResponsePerCommand : Prop :=
  ∀ (i : Instr) (s t : State), exec i s = .next t →
    (i.isPack = false → t.job = s.job ∧ ∃ d, t.out = s.out ++ [.response .ok d]) ∧
    (i.isPack = true →
      (t.job = s.job ∧ (t.out = s.out ++ [.response .ok 0] ∨
        i.wellFormed = false ∧ t.out = s.out ++ [.response .badOperand 0])) ∨
      (t.job.isSome = true ∧ t.out = s.out))

/-! ## Arithmetic -/

/-- R16: the shifts and the rotate of the model are the spec's, on numbers, for every amount below the width;
the two summands of a rotate have no set bit in common. -/
def Obligations.ShiftsAndRotateMatchSpec : Prop :=
  ∀ (W : Nat) (x : BitVec W) (k : Nat), k < W →
    (shl x k).toNat = (x.toNat * 2 ^ k) % 2 ^ W ∧
    (shr x k).toNat = x.toNat / 2 ^ k ∧
    (rotl x k).toNat = Spec.rotl W x.toNat k ∧
    (0 < k → Spec.shl W x.toNat k &&& Spec.shr x.toNat (W - k) = 0)

/-- R52: the Seiran128 step computes the spec's formulas, read on numbers. -/
def Obligations.SeiranStepMatchesSpec : Prop :=
  ∀ e : Seiran,
    ((seiranStep e).1.toNat, (seiranStep e).2.a.toNat, (seiranStep e).2.b.toNat) =
      Spec.seiranStep e.a.toNat e.b.toNat

/-- R60: the SFC step computes the spec's formulas, read on numbers, at every width and for all shift amounts
below it, and keeps the parameter words. -/
def Obligations.SfcStepMatchesSpec : Prop :=
  ∀ (W : Nat) (e : Sfc W), e.Legal →
    ((sfcStep e).1.toNat, (sfcStep e).2.a.toNat, (sfcStep e).2.b.toNat, (sfcStep e).2.c.toNat,
      (sfcStep e).2.d.toNat) =
      Spec.sfcStep W e.p.toNat e.q.toNat e.r.toNat e.a.toNat e.b.toNat e.c.toNat e.d.toNat ∧
    (sfcStep e).2.pqr = e.pqr

/-! ## Seiran128 commands -/

/-- R53: `SEIRAN.INIT` leaves `a = seed*C1 + C2`, `b = a*C1 + C2` (wrapping), responds 0 and changes nothing
else; it does not read the old state and never leaves the all-zero state; its frame and its refusals. -/
def Obligations.SeiranInitResult : Prop :=
  Spec.OneSeed64 0x01 .seiranInit ∧
  ∀ (seed : Word64) (s : State), ∃ a b : Word64,
    exec (.seiranInit seed) s =
      .next { s with seiran := { a := a, b := b }, out := s.out ++ [.response .ok 0] } ∧
    a.toNat = (seed.toNat * 6364136223846793005 + 1442695040888963407) % 2 ^ 64 ∧
    b.toNat = (a.toNat * 6364136223846793005 + 1442695040888963407) % 2 ^ 64 ∧
    ¬(a = 0 ∧ b = 0)

/-- R54: `SEIRAN.NEXT` steps the engine, responds with the word and changes nothing else; its frame and its
refusals. -/
def Obligations.SeiranNextResult : Prop :=
  Spec.NoOperands 0x00 .seiranNext ∧
  ∀ s : State, exec .seiranNext s = .next
    { s with
      seiran :=
        { a := s.seiran.a ^^^ rotl s.seiran.b 29
          b := s.seiran.a ^^^ shl s.seiran.b 9 }
      out := s.out ++
        [.response .ok (rotl ((s.seiran.a + s.seiran.b) * 9) 29 + s.seiran.a)] }

/-- R55 to R58: each jump leaves the exclusive or of the states after `i` steps, over the set bits `i` of its
128-bit polynomial (low word first, bit 0 first), responds 0 and changes nothing else; their frames and
refusals. The bit order inside a word and the zero start of the accumulators are the spec's own inference (R30,
R55 "derived by computation"; log 15). -/
def Obligations.SeiranJumpResults : Prop :=
  Spec.NoOperands 0x04 .seiranJump32 ∧ Spec.NoOperands 0x05 .seiranJump64 ∧
  Spec.NoOperands 0x06 .seiranJump96 ∧
  ∀ (i : Instr) (poly : BitVec 128) (s : State),
    (i = .seiranJump32 ∧ poly = 0x688E6BFC19485AB1_40165CBAE9CA6DEB ∨
      i = .seiranJump64 ∧ poly = 0x2FE2DE5C2E12F601_F4DF34E424CA5C56 ∨
      i = .seiranJump96 ∧ poly = 0x95A98C7025F908B2_185F4DF8B7634607) →
    exec i s = .next
      { s with
        seiran := ((List.range 128).filter (fun k => poly.getLsbD k)).foldl
          (fun t k => t.xor (stepsOf seiranStep k s.seiran)) { a := 0, b := 0 }
        out := s.out ++ [.response .ok 0] }

/-- R80 to R85: the word extractions of Seiran128: one step, `w mod 2^N` in the response, nothing else
changed; their frames and refusals. -/
def Obligations.SeiranExtractResults : Prop :=
  Spec.NoOperands 0x09 .seiranNextBool ∧ Spec.NoOperands 0x0A .seiranNextU8 ∧
  Spec.NoOperands 0x0B .seiranNextU16 ∧ Spec.NoOperands 0x0C .seiranNextU32 ∧
  Spec.NoOperands 0x0D .seiranNextU64 ∧
  ∀ (i : Instr) (N : Nat) (s : State),
    (i, N) ∈ [(Instr.seiranNextBool, 1), (.seiranNextU8, 8), (.seiranNextU16, 16), (.seiranNextU32, 32),
      (.seiranNextU64, 64)] →
    exec i s = .next
      { s with
        seiran := (seiranStep s.seiran).2
        out := s.out ++
          [.response .ok (BitVec.ofNat 64 ((seiranStep s.seiran).1.toNat % 2 ^ N))] }

/-! ## SFC commands -/

/-- R62: `SFC32.NEXT` steps the engine with its own shift amounts, responds with the zero-extended `tmp` and
changes nothing else; its frame and its refusals. -/
def Obligations.Sfc32NextResult : Prop :=
  Spec.NoOperands 0x40 .sfc32Next ∧
  ∀ s : State, exec .sfc32Next s = .next
    { s with
      sfc32 :=
        { s.sfc32 with
          a := s.sfc32.b ^^^ shr s.sfc32.b s.sfc32.q.toNat
          b := s.sfc32.c + shl s.sfc32.c s.sfc32.r.toNat
          c := rotl s.sfc32.c s.sfc32.p.toNat + (s.sfc32.a + s.sfc32.b + s.sfc32.d)
          d := s.sfc32.d + 1 }
      out := s.out ++
        [.response .ok (BitVec.ofNat 64 (s.sfc32.a + s.sfc32.b + s.sfc32.d).toNat)] }

/-- R66: `SFC64.NEXT`, the same at width 64. -/
def Obligations.Sfc64NextResult : Prop :=
  Spec.NoOperands 0x80 .sfc64Next ∧
  ∀ s : State, exec .sfc64Next s = .next
    { s with
      sfc64 :=
        { s.sfc64 with
          a := s.sfc64.b ^^^ shr s.sfc64.b s.sfc64.q.toNat
          b := s.sfc64.c + shl s.sfc64.c s.sfc64.r.toNat
          c := rotl s.sfc64.c s.sfc64.p.toNat + (s.sfc64.a + s.sfc64.b + s.sfc64.d)
          d := s.sfc64.d + 1 }
      out := s.out ++ [.response .ok (s.sfc64.a + s.sfc64.b + s.sfc64.d)] }

/-- R61, R63 to R65: the SFC32 seedings leave the state 12 steps after `(s1, s2, s3, 1)`, so `d = 13`, respond
0 and change nothing else; `INIT` is `INIT3` with one seed three times, `INIT_PRE` with `0xBEEF5EED`; their
frames and refusals. -/
def Obligations.Sfc32SeedingResults : Prop :=
  Spec.ThreeSeeds32 0x42 .sfc32Init3 ∧ Spec.OneSeed32 0x41 .sfc32Init ∧
  Spec.NoOperands 0x43 .sfc32InitPre ∧
  ∀ (i : Instr) (s1 s2 s3 : Word32) (s : State),
    (i = .sfc32Init3 s1 s2 s3 ∨ (i = .sfc32Init s1 ∧ s2 = s1 ∧ s3 = s1) ∨
      (i = .sfc32InitPre ∧ s1 = 0xBEEF5EED ∧ s2 = s1 ∧ s3 = s1)) →
    ∃ e, e = stepsOf sfcStep 12 { s.sfc32 with a := s1, b := s2, c := s3, d := 1 } ∧ e.d = 13 ∧
      exec i s = .next { s with sfc32 := e, out := s.out ++ [.response .ok 0] }

/-- R61, R67 to R69: the SFC64 seedings, the same at width 64, with the default seed `0xCAFEF00DBEEF5EED`. -/
def Obligations.Sfc64SeedingResults : Prop :=
  Spec.ThreeSeeds64 0x82 .sfc64Init3 ∧ Spec.OneSeed64 0x81 .sfc64Init ∧
  Spec.NoOperands 0x83 .sfc64InitPre ∧
  ∀ (i : Instr) (s1 s2 s3 : Word64) (s : State),
    (i = .sfc64Init3 s1 s2 s3 ∨ (i = .sfc64Init s1 ∧ s2 = s1 ∧ s3 = s1) ∨
      (i = .sfc64InitPre ∧ s1 = 0xCAFEF00DBEEF5EED ∧ s2 = s1 ∧ s3 = s1)) →
    ∃ e, e = stepsOf sfcStep 12 { s.sfc64 with a := s1, b := s2, c := s3, d := 1 } ∧ e.d = 13 ∧
      exec i s = .next { s with sfc64 := e, out := s.out ++ [.response .ok 0] }

/-- R80, R86 to R90: the word extractions of SFC32: one step and `w mod 2^N`; `NEXTU64` makes two steps and
answers `second * 2^32 + first`; nothing else changed; their frames and refusals. -/
def Obligations.Sfc32ExtractResults : Prop :=
  Spec.NoOperands 0x49 .sfc32NextBool ∧ Spec.NoOperands 0x4A .sfc32NextU8 ∧
  Spec.NoOperands 0x4B .sfc32NextU16 ∧ Spec.NoOperands 0x4C .sfc32NextU32 ∧
  Spec.NoOperands 0x4D .sfc32NextU64 ∧
  (∀ (i : Instr) (N : Nat) (s : State),
    (i, N) ∈ [(Instr.sfc32NextBool, 1), (.sfc32NextU8, 8), (.sfc32NextU16, 16), (.sfc32NextU32, 32)] →
    exec i s = .next
      { s with
        sfc32 := (sfcStep s.sfc32).2
        out := s.out ++ [.response .ok (BitVec.ofNat 64 ((sfcStep s.sfc32).1.toNat % 2 ^ N))] }) ∧
  ∀ s : State, exec .sfc32NextU64 s = .next
    { s with
      sfc32 := stepsOf sfcStep 2 s.sfc32
      out := s.out ++
        [.response .ok (BitVec.ofNat 64
          ((wordOf sfcStep s.sfc32 1).toNat * 2 ^ 32 + (wordOf sfcStep s.sfc32 0).toNat))] }

/-- R80, R91 to R95: the word extractions of SFC64. -/
def Obligations.Sfc64ExtractResults : Prop :=
  Spec.NoOperands 0x89 .sfc64NextBool ∧ Spec.NoOperands 0x8A .sfc64NextU8 ∧
  Spec.NoOperands 0x8B .sfc64NextU16 ∧ Spec.NoOperands 0x8C .sfc64NextU32 ∧
  Spec.NoOperands 0x8D .sfc64NextU64 ∧
  ∀ (i : Instr) (N : Nat) (s : State),
    (i, N) ∈ [(Instr.sfc64NextBool, 1), (.sfc64NextU8, 8), (.sfc64NextU16, 16), (.sfc64NextU32, 32),
      (.sfc64NextU64, 64)] →
    exec i s = .next
      { s with
        sfc64 := (sfcStep s.sfc64).2
        out := s.out ++ [.response .ok (BitVec.ofNat 64 ((sfcStep s.sfc64).1.toNat % 2 ^ N))] }

/-- Extracting the whole word is `NEXT` (R85, R89, R95). -/
def Obligations.WholeWordExtractIsNext : Prop :=
  ∀ s : State, exec .seiranNextU64 s = exec .seiranNext s ∧ exec .sfc32NextU32 s = exec .sfc32Next s ∧
    exec .sfc64NextU64 s = exec .sfc64Next s

/-! ## PACK -/

/-- R72: `PACK` with `nbits >= W` is refused with `BAD_OPERAND`, with `nbits = 0` or `len = 0` it responds 0,
each with no other change; their frames and refusals (R73 to R75). -/
def Obligations.PackEdgeCases : Prop :=
  Spec.PackOperands 0x08 64 .seiranPack ∧ Spec.PackOperands 0x48 32 .sfc32Pack ∧
  Spec.PackOperands 0x88 64 .sfc64Pack ∧
  ∀ (u : Engine) (len : Word64) (nbits : BitVec 7) (filt : Bool) (s : State),
    (u.width ≤ nbits.toNat → exec (.pack u len nbits filt) s =
      .next { s with out := s.out ++ [.response .badOperand 0] }) ∧
    (nbits.toNat < u.width → nbits = 0 ∨ len = 0 → exec (.pack u len nbits filt) s =
      .next { s with out := s.out ++ [.response .ok 0] })

/-- `PACK` with legal operands and something to do is running after the step that takes it; nothing else has
changed but the model's own count of free values (R72, R73 to R75; that the loop is entered in this step and
run by later ones is the model's choice, log 1). -/
def Obligations.PackBeginsItsLoop : Prop :=
  ∀ (u : Engine) (len : Word64) (nbits : BitVec 7) (filt : Bool) (s : State), nbits.toNat < u.width →
    nbits ≠ 0 → len ≠ 0 →
    ∃ j, exec (.pack u len nbits filt) s =
        .next { s with job := some j, freeIx := s.freeIx + 1 } ∧
      j.ok = true ∧ j.idx = 0 ∧ (∀ k, j = .seiran k → u = .seiran ∧ k.bits = 0 ∧ k.len = len.toNat ∧
        k.nbits = nbits.toNat ∧ k.filt = filt) ∧
      (∀ k, j = .sfc32 k → u = .sfc32 ∧ k.bits = 0 ∧ k.len = len.toNat ∧ k.nbits = nbits.toNat ∧
        k.filt = filt) ∧
      ∀ k, j = .sfc64 k → u = .sfc64 ∧ k.bits = 0 ∧ k.len = len.toNat ∧ k.nbits = nbits.toNat ∧
        k.filt = filt

/-- What is said of each engine's `PACK`, `n` passes after it was taken in state `s` (`s1` is the state then): it
is running, its lanes are the accepted ones of the first `n` candidates, in order, it has given no response, and
the engine has made `ceil(n / floor(W / nbits))` steps. Nothing else has changed but the model's own `job` and
`freeIx`. -/
def packRunning {w : Nat} {σ : Type} (next : σ → BitVec w × σ) (get : State → σ) (put : State → σ → State)
    (nbits : Nat) (filt : Bool) (s s1 : State) (n : Nat) : Prop :=
  ∃ j, j.idx = (acceptedOf next (get s) nbits filt n).length ∧
    steps n s1 = .next
      { put s (stepsOf next (wordsFor w nbits n) (get s)) with
        out := s.out ++ lanesFrom 0 (acceptedOf next (get s) nbits filt n)
        job := some j
        freeIx := s.freeIx + 1 }

/-- What is said of each engine's `PACK`, with legal operands and no reset coming: while fewer than `len` of the
first `n` candidates are accepted it is running after `n` passes; after the pass that cuts the last one all `len`
lanes are out and the response is still to come; the pass after that gives the response `OK len`. -/
def packDelivers {w : Nat} {σ : Type} (next : σ → BitVec w × σ) (get : State → σ) (put : State → σ → State)
    (mk : Word64 → BitVec 7 → Bool → Instr) : Prop :=
  ∀ (s : State) (len : Word64) (nbits : BitVec 7) (filt : Bool), nbits.toNat < w → nbits ≠ 0 → len ≠ 0 →
    s.noReset = true →
    ∃ s1, exec (mk len nbits filt) s = .next s1 ∧ s1.job.isSome = true ∧ s1.out = s.out ∧
      ∀ n, (acceptedOf next (get s) nbits.toNat filt n).length < len.toNat →
        packRunning next get put nbits.toNat filt s s1 n ∧
        ((acceptedOf next (get s) nbits.toNat filt (n + 1)).length = len.toNat →
          packRunning next get put nbits.toNat filt s s1 (n + 1) ∧
          steps (n + 2) s1 = .next
            { put s (stepsOf next (wordsFor w nbits.toNat (n + 1)) (get s)) with
              out := s.out ++ lanesFrom 0 (acceptedOf next (get s) nbits.toNat filt (n + 1)) ++
                [.response .ok len]
              job := none
              freeIx := s.freeIx + 1 })

/-- R71, R76, R77: each `PACK` delivers exactly the accepted candidates, in order, and then its response. The
number of steps it takes is the model's choice (log 1). -/
def Obligations.PackDeliversAcceptedCandidates : Prop :=
  packDelivers seiranStep (·.seiran) (fun s e => { s with seiran := e }) .seiranPack ∧
  packDelivers sfcStep (·.sfc32) (fun s e => { s with sfc32 := e }) .sfc32Pack ∧
  packDelivers sfcStep (·.sfc64) (fun s e => { s with sfc64 := e }) .sfc64Pack

/-- What is said of each engine's `PACK` that a reset ends `n` passes after it was taken, the pass that emits the
last unit being the latest of them. -/
def packResetKeeps {w : Nat} {σ : Type} (next : σ → BitVec w × σ) (get : State → σ)
    (mk : Word64 → BitVec 7 → Bool → Instr) : Prop :=
  ∀ (s : State) (len : Word64) (nbits : BitVec 7) (filt : Bool) (n : Nat) (ms : List HostMove),
    nbits.toNat < w → nbits ≠ 0 → len ≠ 0 → s.moves = .reset n :: ms →
    (∀ m < n, (acceptedOf next (get s) nbits.toNat filt m).length < len.toNat) →
    ∃ s1, exec (mk len nbits filt) s = .next s1 ∧
      steps (n + 1) s1 = .next
        { s with
          seiran := { a := 0, b := 0 }
          sfc32 := Sfc.zeroed s.sfc32.pqr
          sfc64 := Sfc.zeroed s.sfc64.pqr
          out := s.out ++ lanesFrom 0 (acceptedOf next (get s) nbits.toNat filt n)
          job := none
          moves := ms
          freeIx := s.freeIx + 1 }

/-- R109: a reset ends a running `PACK` at any point of it, also after its last lane and before its response: no
response, every state word zero, and exactly the lanes emitted before it stay (rests on 92 D17 and log 6; that a
reset is placed by a count of passes is the model's choice, log 1). -/
def Obligations.ResetEndsPackKeepingItsLanes : Prop :=
  packResetKeeps seiranStep (·.seiran) .seiranPack ∧ packResetKeeps sfcStep (·.sfc32) .sfc32Pack ∧
  packResetKeeps sfcStep (·.sfc64) .sfc64Pack

/-- What is said of each engine's `PACK` without a filter. -/
def packEnds {w : Nat} {σ : Type} (next : σ → BitVec w × σ) (get : State → σ) (put : State → σ → State)
    (mk : Word64 → BitVec 7 → Bool → Instr) : Prop :=
  ∀ (s : State) (len : Word64) (nbits : BitVec 7), nbits.toNat < w → nbits ≠ 0 → len ≠ 0 →
    s.noReset = true →
    ∃ s1, exec (mk len nbits false) s = .next s1 ∧
      steps (len.toNat + 1) s1 = .next
        { put s (stepsOf next (wordsFor w nbits.toNat len.toNat) (get s)) with
          out := s.out ++ lanesFrom 0 ((List.range len.toNat).map (candOf next (get s) nbits.toNat)) ++
            [.response .ok len]
          job := none
          freeIx := s.freeIx + 1 }

/-- R77, R78: a `PACK` without a filter always ends; unit `i` is bits `[(j+1)*nbits-1 : j*nbits]` of word
number `floor(i / k)`, `j = i mod k`, `k = floor(W / nbits)`, and it draws `ceil(len / k)` words.
That it is over `len + 1` steps after the one that takes it is the model's choice (log 1). -/
def Obligations.UnfilteredPackEnds : Prop :=
  packEnds seiranStep (·.seiran) (fun s e => { s with seiran := e }) .seiranPack ∧
  packEnds sfcStep (·.sfc32) (fun s e => { s with sfc32 := e }) .sfc32Pack ∧
  packEnds sfcStep (·.sfc64) (fun s e => { s with sfc64 := e }) .sfc64Pack

/-- R76: the printable filter accepts exactly `0x20 .. 0x7E` (95 of the 7-bit values), `filt = 0` accepts
everything, and a pass of a filtered `PACK`, in any state, emits nothing outside that range. -/
def Obligations.FilteredLanesArePrintable : Prop :=
  (∀ cand, accepts true cand = true ↔ 0x20 ≤ cand ∧ cand ≤ 0x7E) ∧ (∀ cand, accepts false cand = true) ∧
  ((List.range 128).filter (accepts true)).length = 95 ∧
  ∀ (w : Nat) (σ : Type) (next : σ → BitVec w × σ) (e : σ) (j : PackJob w) (i : Nat) (v : Word64),
    w ≤ 64 → j.nbits ≤ w → j.filt = true → .lane i v ∈ (packPass next e j).2.1 →
    0x20 ≤ v.toNat ∧ v.toNat ≤ 0x7E

/-- R78 (a), R112: a filtered `PACK` with `nbits <= 5` never ends, whatever the engine and its state: after
any number of steps it is still running and has emitted nothing. -/
def Obligations.NarrowFilteredPackNeverEnds : Prop :=
  ∀ (u : Engine) (s : State) (len : Word64) (nbits : BitVec 7) (n : Nat), nbits ≠ 0 → nbits.toNat ≤ 5 →
    len ≠ 0 → s.noReset = true →
    ∃ s1 t, exec (.pack u len nbits true) s = .next s1 ∧ steps n s1 = .next t ∧ t.job.isSome = true ∧
      t.out = s.out

/-- R78 (b), R111, R112: a filtered `SEIRAN.PACK` on the all-zero state never ends, emits nothing and leaves
the state all zero at every point. -/
def Obligations.ZeroSeiranFilteredPackNeverEnds : Prop :=
  ∀ (s : State) (len : Word64) (nbits : BitVec 7) (n : Nat), s.seiran = { a := 0, b := 0 } → nbits ≠ 0 →
    nbits.toNat < 64 → len ≠ 0 → s.noReset = true →
    ∃ s1 t, exec (.seiranPack len nbits true) s = .next s1 ∧ steps n s1 = .next t ∧
      t.job.isSome = true ∧ t.out = s.out ∧ t.seiran = { a := 0, b := 0 }

/-- R29: the 8 bytes of `SFC32.PACK len=8 nbits=8` are the little-endian bytes of what `SFC32.NEXTU64` answers
from the same state, and both leave the engine in the same state. The count of 9 steps, one a lane and one for
the response, is the model's choice (log 1). -/
def Obligations.PackedBytesAreNextU64 : Prop :=
  ∀ s : State, s.noReset = true →
    ∃ s1 t u v, exec (.sfc32Pack 8 8 false) s = .next s1 ∧ steps 9 s1 = .next t ∧
      exec .sfc32NextU64 s = .next u ∧ u.sfc32 = t.sfc32 ∧ u.out = s.out ++ [.response .ok v] ∧
      t.out = s.out ++ lanesFrom 0 (leBytes 8 v.toNat) ++ [.response .ok 8] ∧ t.job = none

/-- R79: the residue is not kept: two `PACK` of one byte give the low bytes of two words, one `PACK` of two
bytes the two low bytes of one word. The counts of steps to the end of each `PACK`, one a lane and one for the
response, are the model's choice (log 1). -/
def Obligations.PackResidueIsNotKept : Prop :=
  ∀ s : State, s.noReset = true →
    ∃ a b c d x y, exec (.seiranPack 1 8 false) s = .next a ∧ steps 2 a = .next b ∧ b.job = none ∧
      exec (.seiranPack 1 8 false) b = .next c ∧ steps 2 c = .next d ∧ d.job = none ∧
      exec (.seiranPack 2 8 false) s = .next x ∧ steps 3 x = .next y ∧ y.job = none ∧
      d.out = s.out ++
        [.lane 0 (BitVec.ofNat 64 ((wordOf seiranStep s.seiran 0).toNat % 256)), .response .ok 1,
         .lane 0 (BitVec.ofNat 64 ((wordOf seiranStep s.seiran 1).toNat % 256)), .response .ok 1] ∧
      y.out = s.out ++
        [.lane 0 (BitVec.ofNat 64 ((wordOf seiranStep s.seiran 0).toNat % 256)),
         .lane 1 (BitVec.ofNat 64 ((wordOf seiranStep s.seiran 0).toNat / 256 % 256)), .response .ok 2]

/-! ## Properties of the generators -/

/-- R59 item 1: the state part of the Seiran step is linear over GF(2). -/
def Obligations.SeiranStateStepIsLinear : Prop :=
  ∀ x y : Seiran, seiranT (x.xor y) = (seiranT x).xor (seiranT y)

/-- R59 items 2 and 6: the state part of the Seiran step is a bijection, and the all-zero state is its only
fixed point. -/
def Obligations.SeiranStateStepIsBijective : Prop :=
  Function.Bijective seiranT ∧ ∀ e : Seiran, seiranT e = e ↔ e = { a := 0, b := 0 }

/-- R59 item 4: a jump and `NEXT` commute on the state. -/
def Obligations.JumpCommutesWithNext : Prop :=
  ∀ (i : Instr) (s t u : State), i ∈ [Instr.seiranJump32, .seiranJump64, .seiranJump96] →
    execs [i, .seiranNext] s = .next t → execs [.seiranNext, i] s = .next u → t.seiran = u.seiran

/-- R59 item 3 (MP's claim): the jumps leave the state that 2^32, 2^64 and 2^96 steps would, for every state
(with the bit order of R30, the spec's own inference, log 15). -/
def Obligations.JumpsEqualManySteps : Prop :=
  ∀ e : Seiran,
    seiranJump jump32Lo jump32Hi e = stepsOf seiranStep (2 ^ 32) e ∧
    seiranJump jump64Lo jump64Hi e = stepsOf seiranStep (2 ^ 64) e ∧
    seiranJump jump96Lo jump96Hi e = stepsOf seiranStep (2 ^ 96) e

/-- R111: on the all-zero Seiran state `NEXT`, the three jumps and the five word extractions answer 0, and an
unfiltered `PACK` with something to do emits `len` zeros and answers `OK len`; each leaves the state all zero and
changes nothing else but, for `PACK`, the model's own `freeIx`. (`INIT` leaves the state: SeiranInitResult. A
filtered `PACK` never ends: ZeroSeiranFilteredPackNeverEnds. An empty `PACK` changes nothing: PackEdgeCases. That
the `PACK` takes `len + 1` more steps is the model's choice, log 1.) -/
def Obligations.ZeroSeiranStaysZero : Prop :=
  (∀ (i : Instr) (s : State), i.engine = .seiran → i.isPack = false → (∀ seed, i ≠ .seiranInit seed) →
    s.seiran = { a := 0, b := 0 } →
    exec i s = .next { s with seiran := { a := 0, b := 0 }, out := s.out ++ [.response .ok 0] }) ∧
  ∀ (s : State) (len : Word64) (nbits : BitVec 7), s.seiran = { a := 0, b := 0 } → nbits ≠ 0 →
    nbits.toNat < 64 → len ≠ 0 → s.noReset = true →
    ∃ s1, exec (.seiranPack len nbits false) s = .next s1 ∧
      steps (len.toNat + 1) s1 = .next
        { s with
          seiran := { a := 0, b := 0 }
          out := s.out ++ lanesFrom 0 (List.replicate len.toNat 0) ++ [.response .ok len]
          job := none
          freeIx := s.freeIx + 1 }

/-- R59 item 2, R111: no command, and no pass of a running `PACK`, takes a non-zero Seiran state to the
all-zero one. -/
def Obligations.NonzeroSeiranStaysNonzero : Prop :=
  (∀ (i : Instr) (s t : State), exec i s = .next t → s.seiran ≠ { a := 0, b := 0 } →
    t.seiran ≠ { a := 0, b := 0 }) ∧
  ∀ (s : State) (j : Job), s.seiran ≠ { a := 0, b := 0 } → (s.packStep j).seiran ≠ { a := 0, b := 0 }

/-- R70 item 1, R104: after a seeding and `k` steps the counter word is `13 + k`, modulo `2^W`. -/
def Obligations.SfcCounterCountsSteps : Prop :=
  ∀ (s : State) (k : Nat),
    (∀ s1 s2 s3 : Word32, ∃ t, execs (.sfc32Init3 s1 s2 s3 :: List.replicate k .sfc32Next) s = .next t ∧
      t.sfc32.d.toNat = (13 + k) % 2 ^ 32) ∧
    ∀ s1 s2 s3 : Word64, ∃ t, execs (.sfc64Init3 s1 s2 s3 :: List.replicate k .sfc64Next) s = .next t ∧
      t.sfc64.d.toNat = (13 + k) % 2 ^ 64

/-- R34 (MP's determinism property), R33, R53, R61: engines seeded alike give the same outputs for any number
of `NEXT`, whatever their states and the other engines were before. -/
def Obligations.SameSeedSameOutputs : Prop :=
  ∀ (init nxt : Instr) (k : Nat) (s s' : State),
    ((∃ seed, init = .seiranInit seed) ∧ nxt = .seiranNext ∨
      ((∃ s1 s2 s3, init = .sfc32Init3 s1 s2 s3) ∨ (∃ seed, init = .sfc32Init seed) ∨
        init = .sfc32InitPre) ∧ nxt = .sfc32Next ∧ s.sfc32.pqr = s'.sfc32.pqr ∨
      ((∃ s1 s2 s3, init = .sfc64Init3 s1 s2 s3) ∨ (∃ seed, init = .sfc64Init seed) ∨
        init = .sfc64InitPre) ∧ nxt = .sfc64Next ∧ s.sfc64.pqr = s'.sfc64.pqr) →
    ∃ t t' o, execs (init :: List.replicate k nxt) s = .next t ∧
      execs (init :: List.replicate k nxt) s' = .next t' ∧ t.out = s.out ++ o ∧ t'.out = s'.out ++ o ∧
      o.length = k + 1
end

