-- ==== Sys2Proof/Laws/Decode.lean ====
section
/-! SUPPORT. The fields of a frame, and what each decoding helper accepts. -/

namespace Sys2Proof

/-! ## Fields (R37) -/

theorem Frame.op_ofFields (a2 a1 a0 : Word64) (op : BitVec 8) :
    Frame.op (Frame.ofFields a2 a1 a0 op) = op :=
  BitVec.extractLsb'_append_eq_right

theorem Frame.arg0_ofFields (a2 a1 a0 : Word64) (op : BitVec 8) :
    Frame.arg0 (Frame.ofFields a2 a1 a0 op) = a0 :=
  (BitVec.extractLsb'_append_eq_of_le (by decide)).trans BitVec.extractLsb'_append_eq_right

theorem Frame.arg1_ofFields (a2 a1 a0 : Word64) (op : BitVec 8) :
    Frame.arg1 (Frame.ofFields a2 a1 a0 op) = a1 :=
  (BitVec.extractLsb'_append_eq_of_le (by decide)).trans
    ((BitVec.extractLsb'_append_eq_of_le (by decide)).trans BitVec.extractLsb'_append_eq_right)

theorem Frame.arg2_ofFields (a2 a1 a0 : Word64) (op : BitVec 8) :
    Frame.arg2 (Frame.ofFields a2 a1 a0 op) = a2 :=
  (BitVec.extractLsb'_append_eq_of_le (by decide)).trans
    ((BitVec.extractLsb'_append_eq_of_le (by decide)).trans
      ((BitVec.extractLsb'_append_eq_of_le (by decide)).trans
        (by simp [BitVec.extractLsb'_eq_self])))

/-- A frame is its four fields. -/
theorem Frame.ofFields_fields (f : Frame) :
    Frame.ofFields f.arg2 f.arg1 f.arg0 f.op = f := by
  apply BitVec.eq_of_getLsbD_eq
  intro i hi
  simp only [Frame.ofFields, Frame.op, Frame.arg0, Frame.arg1, Frame.arg2, BitVec.getLsbD_append,
    BitVec.getLsbD_extractLsb']
  split
  · simp [*]
  · split
    · simp [*, show 8 + (i - 8) = i by omega]
    · split
      · simp [*, show 72 + (i - 8 - 64) = i by omega]
      · simp [show i - 8 - 64 - 64 < 64 by omega, show 136 + (i - 8 - 64 - 64) = i by omega]

/-! ## The helpers (R39 to R41, R48) -/

/-- A guarded acceptance. -/
theorem guard_ok {c : Prop} [Decidable c] {x y : Instr} {e : Reject} :
    (if c then Except.ok x else .error e) = (.ok y : Except Reject Instr) ↔ c ∧ x = y := by
  split <;> rename_i h <;> simp [h]

theorem decodeNone_ok {f : Frame} {i i' : Instr} :
    decodeNone f i = .ok i' ↔ (f.arg0 = 0 ∧ f.arg1 = 0 ∧ f.arg2 = 0) ∧ i = i' :=
  guard_ok

theorem decodeSeed64_ok {f : Frame} {mk : Word64 → Instr} {i : Instr} :
    decodeSeed64 f mk = .ok i ↔ (f.arg1 = 0 ∧ f.arg2 = 0) ∧ mk f.arg0 = i :=
  guard_ok

theorem decodeSeed32_ok {f : Frame} {mk : Word32 → Instr} {i : Instr} :
    decodeSeed32 f mk = .ok i ↔
      (fits32 f.arg0 ∧ f.arg1 = 0 ∧ f.arg2 = 0) ∧ mk (f.arg0.setWidth 32) = i :=
  guard_ok

theorem decodeSeeds32_ok {f : Frame} {mk : Word32 → Word32 → Word32 → Instr} {i : Instr} :
    decodeSeeds32 f mk = .ok i ↔
      (fits32 f.arg0 ∧ fits32 f.arg1 ∧ fits32 f.arg2) ∧
        mk (f.arg0.setWidth 32) (f.arg1.setWidth 32) (f.arg2.setWidth 32) = i :=
  guard_ok

theorem decodePack_ok {f : Frame} {W : Nat} {mk : Word64 → BitVec 7 → Bool → Instr} {i : Instr} :
    decodePack f W mk = .ok i ↔
      (packReservedZero f.arg1 ∧ f.arg2 = 0 ∧ (packNbits f.arg1).toNat < W) ∧
        mk f.arg0 (packNbits f.arg1) (packFilt f.arg1) = i :=
  guard_ok

/-! ## Operand fields -/

theorem fits32_setWidth (v : Word32) : fits32 (v.setWidth 64) = true := by
  unfold fits32
  rw [beq_iff_eq]
  apply BitVec.eq_of_getLsbD_eq
  intro i hi
  simp

/-- A field that fits is the zero-extension of its low half (R40). -/
theorem setWidth_of_fits32 {v : Word64} (h : fits32 v = true) : (v.setWidth 32).setWidth 64 = v := by
  unfold fits32 at h
  rw [beq_iff_eq] at h
  apply BitVec.eq_of_getLsbD_eq
  intro i hi
  by_cases h32 : i < 32
  · simp [h32, hi]
  · have hb := congrArg (fun x => x.getLsbD (i - 32)) h
    simp only [BitVec.getLsbD_extractLsb', show i - 32 < 32 by omega,
      decide_true, Bool.true_and, show 32 + (i - 32) = i by omega] at hb
    simp [h32, hb]

theorem packNbits_packArg1 : ∀ (nbits : BitVec 7) (filt : Bool), packNbits (packArg1 nbits filt) = nbits := by
  decide

theorem packFilt_packArg1 : ∀ (nbits : BitVec 7) (filt : Bool), packFilt (packArg1 nbits filt) = filt := by
  decide

theorem packReservedZero_packArg1 :
    ∀ (nbits : BitVec 7) (filt : Bool), packReservedZero (packArg1 nbits filt) = true := by
  decide

end Sys2Proof
end

