-- ==== Sys2Proof/Laws/State.lean ====
section
/-! SUPPORT. One lemma per field of the state for each shared operation that updates it. -/

namespace Sys2Proof.Machine

@[simp] theorem State.deliver_seiran (s : State) (o : List Output) :
    (s.deliver o).seiran = s.seiran := rfl

@[simp] theorem State.deliver_sfc32 (s : State) (o : List Output) :
    (s.deliver o).sfc32 = s.sfc32 := rfl

@[simp] theorem State.deliver_sfc64 (s : State) (o : List Output) :
    (s.deliver o).sfc64 = s.sfc64 := rfl

@[simp] theorem State.deliver_job (s : State) (o : List Output) :
    (s.deliver o).job = s.job := rfl

@[simp] theorem State.deliver_moves (s : State) (o : List Output) :
    (s.deliver o).moves = s.moves := rfl

@[simp] theorem State.deliver_out (s : State) (o : List Output) :
    (s.deliver o).out = s.out ++ o := rfl

@[simp] theorem State.deliver_freeIx (s : State) (o : List Output) :
    (s.deliver o).freeIx = s.freeIx := rfl

@[simp] theorem State.respond_seiran (s : State) (d : Word64) :
    (s.respond d).seiran = s.seiran := rfl

@[simp] theorem State.respond_sfc32 (s : State) (d : Word64) :
    (s.respond d).sfc32 = s.sfc32 := rfl

@[simp] theorem State.respond_sfc64 (s : State) (d : Word64) :
    (s.respond d).sfc64 = s.sfc64 := rfl

@[simp] theorem State.respond_job (s : State) (d : Word64) :
    (s.respond d).job = s.job := rfl

@[simp] theorem State.respond_moves (s : State) (d : Word64) :
    (s.respond d).moves = s.moves := rfl

@[simp] theorem State.respond_out (s : State) (d : Word64) :
    (s.respond d).out = s.out ++ [.response .ok d] := rfl

@[simp] theorem State.respond_freeIx (s : State) (d : Word64) :
    (s.respond d).freeIx = s.freeIx := rfl

@[simp] theorem State.refuse_seiran (s : State) (st : Status) :
    (s.refuse st).seiran = s.seiran := rfl

@[simp] theorem State.refuse_sfc32 (s : State) (st : Status) :
    (s.refuse st).sfc32 = s.sfc32 := rfl

@[simp] theorem State.refuse_sfc64 (s : State) (st : Status) :
    (s.refuse st).sfc64 = s.sfc64 := rfl

@[simp] theorem State.refuse_job (s : State) (st : Status) :
    (s.refuse st).job = s.job := rfl

@[simp] theorem State.refuse_moves (s : State) (st : Status) :
    (s.refuse st).moves = s.moves := rfl

@[simp] theorem State.refuse_out (s : State) (st : Status) :
    (s.refuse st).out = s.out ++ [.response st 0] := rfl

@[simp] theorem State.refuse_freeIx (s : State) (st : Status) :
    (s.refuse st).freeIx = s.freeIx := rfl

@[simp] theorem State.callSeiran_word (s : State) : s.callSeiran.1 = (seiranStep s.seiran).1 := rfl

@[simp] theorem State.callSeiran_seiran (s : State) :
    (s.callSeiran.2).seiran = (seiranStep s.seiran).2 := rfl

@[simp] theorem State.callSeiran_sfc32 (s : State) :
    (s.callSeiran.2).sfc32 = s.sfc32 := rfl

@[simp] theorem State.callSeiran_sfc64 (s : State) :
    (s.callSeiran.2).sfc64 = s.sfc64 := rfl

@[simp] theorem State.callSeiran_job (s : State) :
    (s.callSeiran.2).job = s.job := rfl

@[simp] theorem State.callSeiran_moves (s : State) :
    (s.callSeiran.2).moves = s.moves := rfl

@[simp] theorem State.callSeiran_out (s : State) :
    (s.callSeiran.2).out = s.out := rfl

@[simp] theorem State.callSeiran_freeIx (s : State) :
    (s.callSeiran.2).freeIx = s.freeIx := rfl

@[simp] theorem State.drawSeiran_seiran (s : State) (f : Word64 → Word64) :
    (s.drawSeiran f).seiran = (seiranStep s.seiran).2 := rfl

@[simp] theorem State.drawSeiran_sfc32 (s : State) (f : Word64 → Word64) :
    (s.drawSeiran f).sfc32 = s.sfc32 := rfl

@[simp] theorem State.drawSeiran_sfc64 (s : State) (f : Word64 → Word64) :
    (s.drawSeiran f).sfc64 = s.sfc64 := rfl

@[simp] theorem State.drawSeiran_job (s : State) (f : Word64 → Word64) :
    (s.drawSeiran f).job = s.job := rfl

@[simp] theorem State.drawSeiran_moves (s : State) (f : Word64 → Word64) :
    (s.drawSeiran f).moves = s.moves := rfl

@[simp] theorem State.drawSeiran_out (s : State) (f : Word64 → Word64) :
    (s.drawSeiran f).out = s.out ++ [.response .ok (f (seiranStep s.seiran).1)] := rfl

@[simp] theorem State.drawSeiran_freeIx (s : State) (f : Word64 → Word64) :
    (s.drawSeiran f).freeIx = s.freeIx := rfl

@[simp] theorem State.callSfc32_word (s : State) : s.callSfc32.1 = (sfcStep s.sfc32).1 := rfl

@[simp] theorem State.callSfc32_seiran (s : State) :
    (s.callSfc32.2).seiran = s.seiran := rfl

@[simp] theorem State.callSfc32_sfc32 (s : State) :
    (s.callSfc32.2).sfc32 = (sfcStep s.sfc32).2 := rfl

@[simp] theorem State.callSfc32_sfc64 (s : State) :
    (s.callSfc32.2).sfc64 = s.sfc64 := rfl

@[simp] theorem State.callSfc32_job (s : State) :
    (s.callSfc32.2).job = s.job := rfl

@[simp] theorem State.callSfc32_moves (s : State) :
    (s.callSfc32.2).moves = s.moves := rfl

@[simp] theorem State.callSfc32_out (s : State) :
    (s.callSfc32.2).out = s.out := rfl

@[simp] theorem State.callSfc32_freeIx (s : State) :
    (s.callSfc32.2).freeIx = s.freeIx := rfl

@[simp] theorem State.drawSfc32_seiran (s : State) (f : Word32 → Word64) :
    (s.drawSfc32 f).seiran = s.seiran := rfl

@[simp] theorem State.drawSfc32_sfc32 (s : State) (f : Word32 → Word64) :
    (s.drawSfc32 f).sfc32 = (sfcStep s.sfc32).2 := rfl

@[simp] theorem State.drawSfc32_sfc64 (s : State) (f : Word32 → Word64) :
    (s.drawSfc32 f).sfc64 = s.sfc64 := rfl

@[simp] theorem State.drawSfc32_job (s : State) (f : Word32 → Word64) :
    (s.drawSfc32 f).job = s.job := rfl

@[simp] theorem State.drawSfc32_moves (s : State) (f : Word32 → Word64) :
    (s.drawSfc32 f).moves = s.moves := rfl

@[simp] theorem State.drawSfc32_out (s : State) (f : Word32 → Word64) :
    (s.drawSfc32 f).out = s.out ++ [.response .ok (f (sfcStep s.sfc32).1)] := rfl

@[simp] theorem State.drawSfc32_freeIx (s : State) (f : Word32 → Word64) :
    (s.drawSfc32 f).freeIx = s.freeIx := rfl

@[simp] theorem State.callSfc64_word (s : State) : s.callSfc64.1 = (sfcStep s.sfc64).1 := rfl

@[simp] theorem State.callSfc64_seiran (s : State) :
    (s.callSfc64.2).seiran = s.seiran := rfl

@[simp] theorem State.callSfc64_sfc32 (s : State) :
    (s.callSfc64.2).sfc32 = s.sfc32 := rfl

@[simp] theorem State.callSfc64_sfc64 (s : State) :
    (s.callSfc64.2).sfc64 = (sfcStep s.sfc64).2 := rfl

@[simp] theorem State.callSfc64_job (s : State) :
    (s.callSfc64.2).job = s.job := rfl

@[simp] theorem State.callSfc64_moves (s : State) :
    (s.callSfc64.2).moves = s.moves := rfl

@[simp] theorem State.callSfc64_out (s : State) :
    (s.callSfc64.2).out = s.out := rfl

@[simp] theorem State.callSfc64_freeIx (s : State) :
    (s.callSfc64.2).freeIx = s.freeIx := rfl

@[simp] theorem State.drawSfc64_seiran (s : State) (f : Word64 → Word64) :
    (s.drawSfc64 f).seiran = s.seiran := rfl

@[simp] theorem State.drawSfc64_sfc32 (s : State) (f : Word64 → Word64) :
    (s.drawSfc64 f).sfc32 = s.sfc32 := rfl

@[simp] theorem State.drawSfc64_sfc64 (s : State) (f : Word64 → Word64) :
    (s.drawSfc64 f).sfc64 = (sfcStep s.sfc64).2 := rfl

@[simp] theorem State.drawSfc64_job (s : State) (f : Word64 → Word64) :
    (s.drawSfc64 f).job = s.job := rfl

@[simp] theorem State.drawSfc64_moves (s : State) (f : Word64 → Word64) :
    (s.drawSfc64 f).moves = s.moves := rfl

@[simp] theorem State.drawSfc64_out (s : State) (f : Word64 → Word64) :
    (s.drawSfc64 f).out = s.out ++ [.response .ok (f (sfcStep s.sfc64).1)] := rfl

@[simp] theorem State.drawSfc64_freeIx (s : State) (f : Word64 → Word64) :
    (s.drawSfc64 f).freeIx = s.freeIx := rfl

@[simp] theorem State.hostReset_seiran (s : State) :
    (s.hostReset).seiran = { a := 0, b := 0 } := rfl

@[simp] theorem State.hostReset_sfc32 (s : State) :
    (s.hostReset).sfc32 = s.sfc32.cleared := rfl

@[simp] theorem State.hostReset_sfc64 (s : State) :
    (s.hostReset).sfc64 = s.sfc64.cleared := rfl

@[simp] theorem State.hostReset_job (s : State) :
    (s.hostReset).job = none := rfl

@[simp] theorem State.hostReset_moves (s : State) :
    (s.hostReset).moves = s.moves := rfl

@[simp] theorem State.hostReset_out (s : State) :
    (s.hostReset).out = s.out := rfl

@[simp] theorem State.hostReset_freeIx (s : State) :
    (s.hostReset).freeIx = s.freeIx := rfl

@[simp] theorem State.packStep_seiran_seiran (s : State) (j : PackJob 64) :
    (s.packStep (.seiran j)).seiran = (packPass seiranStep s.seiran j).1 := rfl

@[simp] theorem State.packStep_seiran_sfc32 (s : State) (j : PackJob 64) :
    (s.packStep (.seiran j)).sfc32 = s.sfc32 := rfl

@[simp] theorem State.packStep_seiran_sfc64 (s : State) (j : PackJob 64) :
    (s.packStep (.seiran j)).sfc64 = s.sfc64 := rfl

@[simp] theorem State.packStep_seiran_job (s : State) (j : PackJob 64) :
    (s.packStep (.seiran j)).job = (packPass seiranStep s.seiran j).2.2.map .seiran := rfl

@[simp] theorem State.packStep_seiran_moves (s : State) (j : PackJob 64) :
    (s.packStep (.seiran j)).moves = s.moves := rfl

@[simp] theorem State.packStep_seiran_out (s : State) (j : PackJob 64) :
    (s.packStep (.seiran j)).out = s.out ++ (packPass seiranStep s.seiran j).2.1 := rfl

@[simp] theorem State.packStep_seiran_freeIx (s : State) (j : PackJob 64) :
    (s.packStep (.seiran j)).freeIx = s.freeIx := rfl

@[simp] theorem State.packStep_sfc32_seiran (s : State) (j : PackJob 32) :
    (s.packStep (.sfc32 j)).seiran = s.seiran := rfl

@[simp] theorem State.packStep_sfc32_sfc32 (s : State) (j : PackJob 32) :
    (s.packStep (.sfc32 j)).sfc32 = (packPass sfcStep s.sfc32 j).1 := rfl

@[simp] theorem State.packStep_sfc32_sfc64 (s : State) (j : PackJob 32) :
    (s.packStep (.sfc32 j)).sfc64 = s.sfc64 := rfl

@[simp] theorem State.packStep_sfc32_job (s : State) (j : PackJob 32) :
    (s.packStep (.sfc32 j)).job = (packPass sfcStep s.sfc32 j).2.2.map .sfc32 := rfl

@[simp] theorem State.packStep_sfc32_moves (s : State) (j : PackJob 32) :
    (s.packStep (.sfc32 j)).moves = s.moves := rfl

@[simp] theorem State.packStep_sfc32_out (s : State) (j : PackJob 32) :
    (s.packStep (.sfc32 j)).out = s.out ++ (packPass sfcStep s.sfc32 j).2.1 := rfl

@[simp] theorem State.packStep_sfc32_freeIx (s : State) (j : PackJob 32) :
    (s.packStep (.sfc32 j)).freeIx = s.freeIx := rfl

@[simp] theorem State.packStep_sfc64_seiran (s : State) (j : PackJob 64) :
    (s.packStep (.sfc64 j)).seiran = s.seiran := rfl

@[simp] theorem State.packStep_sfc64_sfc32 (s : State) (j : PackJob 64) :
    (s.packStep (.sfc64 j)).sfc32 = s.sfc32 := rfl

@[simp] theorem State.packStep_sfc64_sfc64 (s : State) (j : PackJob 64) :
    (s.packStep (.sfc64 j)).sfc64 = (packPass sfcStep s.sfc64 j).1 := rfl

@[simp] theorem State.packStep_sfc64_job (s : State) (j : PackJob 64) :
    (s.packStep (.sfc64 j)).job = (packPass sfcStep s.sfc64 j).2.2.map .sfc64 := rfl

@[simp] theorem State.packStep_sfc64_moves (s : State) (j : PackJob 64) :
    (s.packStep (.sfc64 j)).moves = s.moves := rfl

@[simp] theorem State.packStep_sfc64_out (s : State) (j : PackJob 64) :
    (s.packStep (.sfc64 j)).out = s.out ++ (packPass sfcStep s.sfc64 j).2.1 := rfl

@[simp] theorem State.packStep_sfc64_freeIx (s : State) (j : PackJob 64) :
    (s.packStep (.sfc64 j)).freeIx = s.freeIx := rfl

@[simp] theorem Sfc.cleared_a {w : Nat} (e : Sfc w) : e.cleared.a = 0 := rfl

@[simp] theorem Sfc.cleared_b {w : Nat} (e : Sfc w) : e.cleared.b = 0 := rfl

@[simp] theorem Sfc.cleared_c {w : Nat} (e : Sfc w) : e.cleared.c = 0 := rfl

@[simp] theorem Sfc.cleared_d {w : Nat} (e : Sfc w) : e.cleared.d = 0 := rfl

@[simp] theorem Sfc.cleared_p {w : Nat} (e : Sfc w) : e.cleared.p = e.p := rfl

@[simp] theorem sfcStep_p {w : Nat} (e : Sfc w) : (sfcStep e).2.p = e.p := rfl

@[simp] theorem Sfc.cleared_q {w : Nat} (e : Sfc w) : e.cleared.q = e.q := rfl

@[simp] theorem sfcStep_q {w : Nat} (e : Sfc w) : (sfcStep e).2.q = e.q := rfl

@[simp] theorem Sfc.cleared_r {w : Nat} (e : Sfc w) : e.cleared.r = e.r := rfl

@[simp] theorem sfcStep_r {w : Nat} (e : Sfc w) : (sfcStep e).2.r = e.r := rfl

@[simp] theorem sfcStep_a {w : Nat} (e : Sfc w) : (sfcStep e).2.a = e.b ^^^ shr e.b e.q.toNat := rfl

@[simp] theorem sfcStep_b {w : Nat} (e : Sfc w) : (sfcStep e).2.b = e.c + shl e.c e.r.toNat := rfl

@[simp] theorem sfcStep_c {w : Nat} (e : Sfc w) : (sfcStep e).2.c = rotl e.c e.p.toNat + (e.a + e.b + e.d) := rfl

@[simp] theorem sfcStep_d {w : Nat} (e : Sfc w) : (sfcStep e).2.d = e.d + 1 := rfl

@[simp] theorem sfcStep_word {w : Nat} (e : Sfc w) : (sfcStep e).1 = e.a + e.b + e.d := rfl

@[simp] theorem seiranStep_a (e : Seiran) : (seiranStep e).2.a = e.a ^^^ rotl e.b seiranRotB := rfl

@[simp] theorem seiranStep_b (e : Seiran) : (seiranStep e).2.b = e.a ^^^ shl e.b seiranShlB := rfl

@[simp] theorem seiranStep_word (e : Seiran) :
    (seiranStep e).1 = rotl ((e.a + e.b) * seiranMul) seiranRotOut + e.a := rfl

end Sys2Proof.Machine
end

