-- ==== Sys2Proof/Laws/Exec.lean ====
section
/-! SUPPORT. Each command in terms of the shared operations, so that no later proof unfolds exec. -/

namespace Sys2Proof.Machine

theorem exec_seiranNext (s : State) : exec .seiranNext s = .next (s.drawSeiran id) := rfl

theorem exec_seiranInit (seed : Word64) (s : State) :
    exec (.seiranInit seed) s = .next ({ s with seiran := seiranInit seed }.respond 0) := rfl

theorem exec_seiranJump32 (s : State) : exec .seiranJump32 s = .next ({ s with seiran := seiranJump jump32Lo jump32Hi s.seiran }.respond 0) := rfl

theorem exec_seiranJump64 (s : State) : exec .seiranJump64 s = .next ({ s with seiran := seiranJump jump64Lo jump64Hi s.seiran }.respond 0) := rfl

theorem exec_seiranJump96 (s : State) : exec .seiranJump96 s = .next ({ s with seiran := seiranJump jump96Lo jump96Hi s.seiran }.respond 0) := rfl

theorem exec_seiranPack (len : Word64) (nbits : BitVec 7) (filt : Bool) (s : State) :
    exec (.seiranPack len nbits filt) s = .next (s.packStart .seiran len nbits filt) := rfl

theorem exec_seiranNextBool (s : State) : exec .seiranNextBool s = .next (s.drawSeiran (lowBits 1)) := rfl

theorem exec_seiranNextU8 (s : State) : exec .seiranNextU8 s = .next (s.drawSeiran (lowBits 8)) := rfl

theorem exec_seiranNextU16 (s : State) : exec .seiranNextU16 s = .next (s.drawSeiran (lowBits 16)) := rfl

theorem exec_seiranNextU32 (s : State) : exec .seiranNextU32 s = .next (s.drawSeiran (lowBits 32)) := rfl

theorem exec_seiranNextU64 (s : State) : exec .seiranNextU64 s = .next (s.drawSeiran (lowBits 64)) := rfl

theorem exec_sfc32Next (s : State) : exec .sfc32Next s = .next (s.drawSfc32 zext64) := rfl

theorem exec_sfc32Init (seed : Word32) (s : State) :
    exec (.sfc32Init seed) s = .next ({ s with sfc32 := sfcInit3 s.sfc32 seed seed seed }.respond 0) := rfl

theorem exec_sfc32Init3 (s1 s2 s3 : Word32) (s : State) :
    exec (.sfc32Init3 s1 s2 s3) s = .next ({ s with sfc32 := sfcInit3 s.sfc32 s1 s2 s3 }.respond 0) := rfl

theorem exec_sfc32InitPre (s : State) : exec .sfc32InitPre s = .next ({ s with sfc32 := sfcInit3 s.sfc32 sfc32DefaultSeed sfc32DefaultSeed sfc32DefaultSeed }.respond 0) := rfl

theorem exec_sfc32Pack (len : Word64) (nbits : BitVec 7) (filt : Bool) (s : State) :
    exec (.sfc32Pack len nbits filt) s = .next (s.packStart .sfc32 len nbits filt) := rfl

theorem exec_sfc32NextBool (s : State) : exec .sfc32NextBool s = .next (s.drawSfc32 (lowBits 1)) := rfl

theorem exec_sfc32NextU8 (s : State) : exec .sfc32NextU8 s = .next (s.drawSfc32 (lowBits 8)) := rfl

theorem exec_sfc32NextU16 (s : State) : exec .sfc32NextU16 s = .next (s.drawSfc32 (lowBits 16)) := rfl

theorem exec_sfc32NextU32 (s : State) : exec .sfc32NextU32 s = .next (s.drawSfc32 (lowBits 32)) := rfl

theorem exec_sfc32NextU64 (s : State) : exec .sfc32NextU64 s = .next (s.callSfc32.2.callSfc32.2.respond (joinHalves s.callSfc32.2.callSfc32.1 s.callSfc32.1)) := rfl

theorem exec_sfc64Next (s : State) : exec .sfc64Next s = .next (s.drawSfc64 zext64) := rfl

theorem exec_sfc64Init (seed : Word64) (s : State) :
    exec (.sfc64Init seed) s = .next ({ s with sfc64 := sfcInit3 s.sfc64 seed seed seed }.respond 0) := rfl

theorem exec_sfc64Init3 (s1 s2 s3 : Word64) (s : State) :
    exec (.sfc64Init3 s1 s2 s3) s = .next ({ s with sfc64 := sfcInit3 s.sfc64 s1 s2 s3 }.respond 0) := rfl

theorem exec_sfc64InitPre (s : State) : exec .sfc64InitPre s = .next ({ s with sfc64 := sfcInit3 s.sfc64 sfc64DefaultSeed sfc64DefaultSeed sfc64DefaultSeed }.respond 0) := rfl

theorem exec_sfc64Pack (len : Word64) (nbits : BitVec 7) (filt : Bool) (s : State) :
    exec (.sfc64Pack len nbits filt) s = .next (s.packStart .sfc64 len nbits filt) := rfl

theorem exec_sfc64NextBool (s : State) : exec .sfc64NextBool s = .next (s.drawSfc64 (lowBits 1)) := rfl

theorem exec_sfc64NextU8 (s : State) : exec .sfc64NextU8 s = .next (s.drawSfc64 (lowBits 8)) := rfl

theorem exec_sfc64NextU16 (s : State) : exec .sfc64NextU16 s = .next (s.drawSfc64 (lowBits 16)) := rfl

theorem exec_sfc64NextU32 (s : State) : exec .sfc64NextU32 s = .next (s.drawSfc64 (lowBits 32)) := rfl

theorem exec_sfc64NextU64 (s : State) : exec .sfc64NextU64 s = .next (s.drawSfc64 (lowBits 64)) := rfl

end Sys2Proof.Machine
end

