-- ==== Sys2Proof/Laws/Ops.lean ====
section
/-! SUPPORT. What each shared operation can do, said once. -/

namespace Sys2Proof.Machine

/-! ## Rotate -/

/-- The primitive of R16 is Lean's rotate for every amount below the width. -/
theorem rotl_eq_rotateLeft {w : Nat} (x : BitVec w) {k : Nat} (hk : k < w) :
    rotl x k = x.rotateLeft k := by
  unfold rotl shl shr
  split
  · subst k
    ext i hi
    simp [BitVec.getElem_rotateLeft]
  · rw [BitVec.rotateLeft_def, Nat.mod_eq_of_lt hk, BitVec.add_eq_or_of_and_eq_zero]
    ext i hi
    simp only [BitVec.getElem_and, BitVec.getElem_shiftLeft, BitVec.getElem_ushiftRight,
      BitVec.getElem_zero]
    by_cases h : i < k
    · simp [h]
    · simp [BitVec.getLsbD_of_ge x (w - k + i) (by omega)]

/-! ## Engines -/

/-- Seeding keeps the parameter words. -/
theorem sfcWarmup_pqr {w : Nat} (n : Nat) (e : Sfc w) : (sfcWarmup n e).pqr = e.pqr := by
  induction n generalizing e with
  | zero => rfl
  | succ n ih => exact ih _

/-- Seeding keeps the parameter words. -/
theorem sfcInit3_pqr {w : Nat} (e : Sfc w) (s1 s2 s3 : BitVec w) : (sfcInit3 e s1 s2 s3).pqr = e.pqr :=
  sfcWarmup_pqr _ _

/-- Each step adds one to the counter word. -/
theorem sfcWarmup_d {w : Nat} (n : Nat) (e : Sfc w) : (sfcWarmup n e).d = e.d + BitVec.ofNat w n := by
  induction n generalizing e with
  | zero => simp [sfcWarmup]
  | succ n ih =>
    rw [sfcWarmup, ih, sfcStep_d, BitVec.add_assoc]
    congr 1
    simp [BitVec.ofNat_add, BitVec.add_comm]

/-- Seeding depends on the seeds and the parameter words only. -/
theorem sfcInit3_congr {w : Nat} {e e' : Sfc w} (h : e.pqr = e'.pqr) (s1 s2 s3 : BitVec w) :
    sfcInit3 e s1 s2 s3 = sfcInit3 e' s1 s2 s3 := by
  unfold sfcInit3
  congr 1
  simp only [Sfc.pqr, Pqr.mk.injEq] at h
  simp [h]

/-! ## The packing procedure -/

/-- Whether or not a fresh word is drawn, the engine makes at most one step. -/
theorem packLoad_engine {w : Nat} {σ : Type} (next : σ → BitVec w × σ) (e : σ) (j : PackJob w) :
    (packLoad next e j).1 = if j.bits < j.nbits then (next e).2 else e := by
  unfold packLoad; split <;> rfl

/-- Loading touches the residue only. -/
theorem packLoad_job {w : Nat} {σ : Type} (next : σ → BitVec w × σ) (e : σ) (j : PackJob w) :
    (packLoad next e j).2 =
      { j with
        rand := if j.bits < j.nbits then (next e).1 else j.rand
        bits := if j.bits < j.nbits then w else j.bits } := by
  unfold packLoad; split <;> rfl

/-- Cutting a candidate: one lane if it is accepted, none if not. -/
theorem packCut_eq {w : Nat} (j : PackJob w) :
    packCut j =
      (if accepts j.filt (candidate j.nbits j.rand).toNat
        then [.lane j.idx (zext64 (candidate j.nbits j.rand))] else [],
       { j with
         rand := shr j.rand j.nbits
         bits := j.bits - j.nbits
         idx := if accepts j.filt (candidate j.nbits j.rand).toNat then j.idx + 1 else j.idx }) := by
  unfold packCut; dsimp only; split <;> rfl

/-- A pass with units still to come is the loop body: it loads and cuts. -/
theorem packPass_of_lt {w : Nat} {σ : Type} (next : σ → BitVec w × σ) (e : σ) {j : PackJob w}
    (h : j.idx < j.len) :
    packPass next e j =
      ((packLoad next e j).1, (packCut (packLoad next e j).2).1, some (packCut (packLoad next e j).2).2) := by
  unfold packPass; rw [if_pos h]

/-- One pass with units still to come: a candidate is cut from the residue or from a fresh word, and emitted if it
is accepted; the command goes on. -/
theorem packPass_cases {w : Nat} {σ : Type} (next : σ → BitVec w × σ) (e : σ) {j : PackJob w}
    (h : j.idx < j.len) :
    ∃ rand : BitVec w, ∃ bits : Nat, ∃ e' : σ,
      (j.bits < j.nbits ∧ rand = (next e).1 ∧ bits = w ∧ e' = (next e).2 ∨
        ¬ j.bits < j.nbits ∧ rand = j.rand ∧ bits = j.bits ∧ e' = e) ∧
      (accepts j.filt (candidate j.nbits rand).toNat = true ∧
          packPass next e j =
            (e', [.lane j.idx (zext64 (candidate j.nbits rand))],
              some { j with rand := shr rand j.nbits, bits := bits - j.nbits, idx := j.idx + 1 }) ∨
        accepts j.filt (candidate j.nbits rand).toNat = false ∧
          packPass next e j =
            (e', [], some { j with rand := shr rand j.nbits, bits := bits - j.nbits })) := by
  refine ⟨if j.bits < j.nbits then (next e).1 else j.rand, if j.bits < j.nbits then w else j.bits,
    if j.bits < j.nbits then (next e).2 else e, ?_, ?_⟩
  · split
    · exact .inl ⟨‹_›, rfl, rfl, rfl⟩
    · exact .inr ⟨‹_›, rfl, rfl, rfl⟩
  · rw [packPass_of_lt next e h, packLoad_engine, packLoad_job, packCut_eq]
    dsimp only
    cases hacc : accepts j.filt
        (candidate j.nbits (if j.bits < j.nbits then (next e).1 else j.rand)).toNat
    · exact .inr ⟨rfl, by simp⟩
    · exact .inl ⟨rfl, by simp⟩

/-- The pass after the last unit: the response, and the command is over. -/
theorem packPass_done {w : Nat} {σ : Type} (next : σ → BitVec w × σ) (e : σ) {j : PackJob w}
    (h : ¬ j.idx < j.len) :
    packPass next e j = (e, [.response .ok (BitVec.ofNat 64 j.idx)], none) := by
  unfold packPass; rw [if_neg h]

/-- Alike jobs make the same pass: a residual word that is overwritten unread has no effect (log 2). -/
theorem packPass_alike {w : Nat} {σ : Type} (next : σ → BitVec w × σ) (e : σ) {j j' : PackJob w}
    (h : j.Alike j') : packPass next e j = packPass next e j' := by
  obtain ⟨hj', hr⟩ := h
  by_cases hl : j.idx < j.len
  · have hl' : j'.idx < j'.len := by rw [hj']; exact hl
    have hload : packLoad next e j = packLoad next e j' := by
      rw [hj']
      rcases hr with hr | hr
      · rw [← hr]
      · simp [packLoad, hr]
    rw [packPass_of_lt next e hl, packPass_of_lt next e hl', hload]
  · have hl' : ¬ j'.idx < j'.len := by rw [hj']; exact hl
    rw [packPass_done next e hl, packPass_done next e hl', hj']

/-- The three things a `PACK` command can do when it is taken (R72). -/
theorem packStart_cases (s : State) {w : Nat} (mk : PackJob w → Job) (len : Word64) (nbits : BitVec 7)
    (filt : Bool) :
    w ≤ nbits.toNat ∧ s.packStart mk len nbits filt = s.refuse .badOperand ∨
    nbits.toNat < w ∧ (nbits = 0 ∨ len = 0) ∧ s.packStart mk len nbits filt = s.respond 0 ∨
    nbits.toNat < w ∧ nbits ≠ 0 ∧ len ≠ 0 ∧ s.packStart mk len nbits filt =
      { s with job := some (mk (packBegin w len nbits filt s.freeIx)), freeIx := s.freeIx + 1 } := by
  unfold State.packStart
  by_cases h1 : w ≤ nbits.toNat
  · exact .inl ⟨h1, by rw [if_pos h1]⟩
  · by_cases h2 : nbits = 0 ∨ len = 0
    · exact .inr (.inl ⟨by omega, h2, by rw [if_neg h1, if_pos h2]⟩)
    · exact .inr (.inr ⟨by omega, fun h => h2 (.inl h), fun h => h2 (.inr h),
        by rw [if_neg h1, if_neg h2]⟩)

end Sys2Proof.Machine
end

