-- ==== Sys2Proof/Laws/PerInstr.lean ====
section
/-! SUPPORT. The statements made per instruction. Family TableRow: the encoding of a well-formed command
has the opcode byte and the must-be-zero bits of its row of spec/opcode_table.json. -/

namespace Sys2Proof.Laws.TableRow

/-- A field that must be zero whole. -/
def allZero : Word64 := 0xFFFFFFFFFFFFFFFF

/-- A row's "match", and its "must_be_zero_mask" cut into `arg2`, `arg1`, `arg0`. -/
def row : Instr → BitVec 8 × Word64 × Word64 × Word64
  | .seiranNext => (0x00, allZero, allZero, allZero)
  | .seiranInit _ => (0x01, allZero, allZero, 0)
  | .seiranJump32 => (0x04, allZero, allZero, allZero)
  | .seiranJump64 => (0x05, allZero, allZero, allZero)
  | .seiranJump96 => (0x06, allZero, allZero, allZero)
  | .seiranPack _ _ _ => (0x08, allZero, 0xFFFFFFFFFFFFFE80, 0)
  | .seiranNextBool => (0x09, allZero, allZero, allZero)
  | .seiranNextU8 => (0x0A, allZero, allZero, allZero)
  | .seiranNextU16 => (0x0B, allZero, allZero, allZero)
  | .seiranNextU32 => (0x0C, allZero, allZero, allZero)
  | .seiranNextU64 => (0x0D, allZero, allZero, allZero)
  | .sfc32Next => (0x40, allZero, allZero, allZero)
  | .sfc32Init _ => (0x41, allZero, allZero, 0xFFFFFFFF00000000)
  | .sfc32Init3 _ _ _ => (0x42, 0xFFFFFFFF00000000, 0xFFFFFFFF00000000, 0xFFFFFFFF00000000)
  | .sfc32InitPre => (0x43, allZero, allZero, allZero)
  | .sfc32Pack _ _ _ => (0x48, allZero, 0xFFFFFFFFFFFFFE80, 0)
  | .sfc32NextBool => (0x49, allZero, allZero, allZero)
  | .sfc32NextU8 => (0x4A, allZero, allZero, allZero)
  | .sfc32NextU16 => (0x4B, allZero, allZero, allZero)
  | .sfc32NextU32 => (0x4C, allZero, allZero, allZero)
  | .sfc32NextU64 => (0x4D, allZero, allZero, allZero)
  | .sfc64Next => (0x80, allZero, allZero, allZero)
  | .sfc64Init _ => (0x81, allZero, allZero, 0)
  | .sfc64Init3 _ _ _ => (0x82, 0, 0, 0)
  | .sfc64InitPre => (0x83, allZero, allZero, allZero)
  | .sfc64Pack _ _ _ => (0x88, allZero, 0xFFFFFFFFFFFFFE80, 0)
  | .sfc64NextBool => (0x89, allZero, allZero, allZero)
  | .sfc64NextU8 => (0x8A, allZero, allZero, allZero)
  | .sfc64NextU16 => (0x8B, allZero, allZero, allZero)
  | .sfc64NextU32 => (0x8C, allZero, allZero, allZero)
  | .sfc64NextU64 => (0x8D, allZero, allZero, allZero)

/-- The encoding agrees with the row. -/
def Statement (i : Instr) : Prop :=
  i.wellFormed = true →
    Frame.op (encode i) = (row i).1 ∧
    encode i &&& Frame.ofFields (row i).2.1 (row i).2.2.1 (row i).2.2.2 0 = 0

/-- Masking works field by field. -/
theorem fields_zero {a2 a1 a0 m2 m1 m0 : Word64} {op op' : BitVec 8} (hop : op = op')
    (h0 : a0 &&& m0 = 0) (h1 : a1 &&& m1 = 0) (h2 : a2 &&& m2 = 0) :
    Frame.op (Frame.ofFields a2 a1 a0 op) = op' ∧
    Frame.ofFields a2 a1 a0 op &&& Frame.ofFields m2 m1 m0 0 = 0 := by
  refine ⟨(Frame.op_ofFields _ _ _ _).trans hop, ?_⟩
  unfold Frame.ofFields
  rw [BitVec.and_append, BitVec.and_append, BitVec.and_append, h0, h1, h2]
  simp

theorem packArg1_and : ∀ (nbits : BitVec 7) (filt : Bool), packArg1 nbits filt &&& 0xFFFFFFFFFFFFFE80 = 0 := by
  decide

/-- A zero-extended 32-bit word has no bit of the upper half. -/
theorem setWidth_and (v : Word32) : v.setWidth 64 &&& 0xFFFFFFFF00000000 = 0 := by
  apply BitVec.eq_of_getLsbD_eq
  intro i hi
  rw [BitVec.getLsbD_and, BitVec.getLsbD_setWidth]
  by_cases h : i < 32
  · have : ∀ k : Fin 32, (0xFFFFFFFF00000000 : Word64).getLsbD k.val = false := by decide
    rw [this ⟨i, h⟩]; simp
  · simp [BitVec.getLsbD_of_ge v i (by omega)]

theorem seiranNext : Statement .seiranNext := fun _ => by decide

theorem seiranInit (seed : Word64) : Statement (.seiranInit seed) := fun _ =>
  fields_zero rfl BitVec.and_zero BitVec.zero_and BitVec.zero_and

theorem seiranJump32 : Statement .seiranJump32 := fun _ => by decide

theorem seiranJump64 : Statement .seiranJump64 := fun _ => by decide

theorem seiranJump96 : Statement .seiranJump96 := fun _ => by decide

theorem seiranPack (len : Word64) (nbits : BitVec 7) (filt : Bool) :
    Statement (.seiranPack len nbits filt) := fun _ =>
  fields_zero rfl (BitVec.and_zero) (packArg1_and nbits filt) (BitVec.zero_and)

theorem seiranNextBool : Statement .seiranNextBool := fun _ => by decide

theorem seiranNextU8 : Statement .seiranNextU8 := fun _ => by decide

theorem seiranNextU16 : Statement .seiranNextU16 := fun _ => by decide

theorem seiranNextU32 : Statement .seiranNextU32 := fun _ => by decide

theorem seiranNextU64 : Statement .seiranNextU64 := fun _ => by decide

theorem sfc32Next : Statement .sfc32Next := fun _ => by decide

theorem sfc32Init (seed : Word32) : Statement (.sfc32Init seed) := fun _ =>
  fields_zero rfl (setWidth_and seed) BitVec.zero_and BitVec.zero_and

theorem sfc32Init3 (s1 s2 s3 : Word32) : Statement (.sfc32Init3 s1 s2 s3) := fun _ =>
  fields_zero rfl (setWidth_and s1) (setWidth_and s2) (setWidth_and s3)

theorem sfc32InitPre : Statement .sfc32InitPre := fun _ => by decide

theorem sfc32Pack (len : Word64) (nbits : BitVec 7) (filt : Bool) :
    Statement (.sfc32Pack len nbits filt) := fun _ =>
  fields_zero rfl (BitVec.and_zero) (packArg1_and nbits filt) (BitVec.zero_and)

theorem sfc32NextBool : Statement .sfc32NextBool := fun _ => by decide

theorem sfc32NextU8 : Statement .sfc32NextU8 := fun _ => by decide

theorem sfc32NextU16 : Statement .sfc32NextU16 := fun _ => by decide

theorem sfc32NextU32 : Statement .sfc32NextU32 := fun _ => by decide

theorem sfc32NextU64 : Statement .sfc32NextU64 := fun _ => by decide

theorem sfc64Next : Statement .sfc64Next := fun _ => by decide

theorem sfc64Init (seed : Word64) : Statement (.sfc64Init seed) := fun _ =>
  fields_zero rfl BitVec.and_zero BitVec.zero_and BitVec.zero_and

theorem sfc64Init3 (s1 s2 s3 : Word64) : Statement (.sfc64Init3 s1 s2 s3) := fun _ =>
  fields_zero rfl BitVec.and_zero BitVec.and_zero BitVec.and_zero

theorem sfc64InitPre : Statement .sfc64InitPre := fun _ => by decide

theorem sfc64Pack (len : Word64) (nbits : BitVec 7) (filt : Bool) :
    Statement (.sfc64Pack len nbits filt) := fun _ =>
  fields_zero rfl (BitVec.and_zero) (packArg1_and nbits filt) (BitVec.zero_and)

theorem sfc64NextBool : Statement .sfc64NextBool := fun _ => by decide

theorem sfc64NextU8 : Statement .sfc64NextU8 := fun _ => by decide

theorem sfc64NextU16 : Statement .sfc64NextU16 := fun _ => by decide

theorem sfc64NextU32 : Statement .sfc64NextU32 := fun _ => by decide

theorem sfc64NextU64 : Statement .sfc64NextU64 := fun _ => by decide

end Sys2Proof.Laws.TableRow
end

