-- ==== Sys2Proof/Laws/Step.lean ====
section
/-! SUPPORT. What one step can do, said once. -/

namespace Sys2Proof.Machine

/-- Every command answers a next state. -/
theorem exec_next (i : Instr) (s : State) : ∃ t, exec i s = .next t := by
  cases i <;> exact ⟨_, rfl⟩

/-- Every step answers a next state. -/
theorem step_next (s : State) : ∃ t, step s = .next t := by
  unfold step
  split
  · exact exec_next _ _
  · exact ⟨_, rfl⟩

/-- Everything a step can do: reset the block, make a pass of a running `PACK`, wait, refuse a frame, or
perform the command a frame holds. -/
theorem step_cases {s t : State} (h : step s = .next t) :
    (∃ ms, t = { s with moves := ms }.hostReset) ∨
    (∃ j ms, s.job = some j ∧ t = { s with moves := ms }.packStep j) ∨
    (∃ ms, s.job = none ∧ t = { s with moves := ms }) ∨
    (∃ f ms e, s.job = none ∧ s.moves = .present f :: ms ∧ decode f = .error e ∧
      t = { s with moves := ms }.refuse e.status) ∨
    (∃ f ms i, s.job = none ∧ s.moves = .present f :: ms ∧ decode f = .ok i ∧
      exec i { s with moves := ms } = .next t) := by
  have adv : ∀ ms, t = ({ s with moves := ms } : State).advance →
      (∃ j ms, s.job = some j ∧ t = { s with moves := ms }.packStep j) ∨
      (∃ ms, s.job = none ∧ t = { s with moves := ms }) := by
    intro ms ht
    cases hj : s.job with
    | none => exact .inr ⟨ms, rfl, by rw [ht, State.advance]; simp [hj]⟩
    | some j => exact .inl ⟨j, ms, rfl, by rw [ht, State.advance]; simp [hj]⟩
  have adv' : t = s.advance →
      (∃ j ms, s.job = some j ∧ t = { s with moves := ms }.packStep j) ∨
      (∃ ms, s.job = none ∧ t = { s with moves := ms }) := fun ht => adv s.moves ht
  unfold step State.turn at h
  split at h
  · rename_i i s' hturn
    split at hturn <;> try simp at hturn
    · rename_i f ms hm
      split at hturn
      · simp at hturn
      · rename_i hidle
        unfold State.takeFrame at hturn
        split at hturn
        · rename_i hdec
          cases hturn
          exact .inr (.inr (.inr (.inr ⟨f, ms, i, by simpa using hidle, hm, hdec, h⟩)))
        · simp at hturn
    · split at hturn <;> simp at hturn
  · rename_i s' hturn
    cases h
    split at hturn
    · cases hturn; exact .inr ((adv' rfl).elim .inl (fun h => .inr (.inl h)))
    · rename_i ms hm; cases hturn; exact .inl ⟨ms, rfl⟩
    · cases hturn; exact .inr ((adv _ rfl).elim .inl (fun h => .inr (.inl h)))
    · rename_i f ms hm
      split at hturn
      · cases hturn; exact .inr ((adv' rfl).elim .inl (fun h => .inr (.inl h)))
      · rename_i hidle
        unfold State.takeFrame at hturn
        split at hturn
        · simp at hturn
        · rename_i e hdec
          cases hturn
          exact .inr (.inr (.inr (.inl ⟨f, ms, e, by simpa using hidle, hm, hdec, rfl⟩)))
    · split at hturn
      · cases hturn; exact .inr ((adv' rfl).elim .inl (fun h => .inr (.inl h)))
      · cases hturn; exact .inl ⟨_, rfl⟩

/-- A step of a busy block that no reset is coming for is one pass of its `PACK`. -/
theorem step_busy {s : State} {j : Job} (hj : s.job = some j) (hr : s.noReset = true) :
    step s = .next (s.packStep j) := by
  unfold step State.turn
  cases hm : s.moves with
  | nil => simp [State.advance, hj]
  | cons m ms =>
    cases m with
    | present f => simp [State.advance, hj]
    | cut f => simp [State.advance, hj]
    | reset n => simp [State.noReset, hm] at hr

/-- A step of an idle block that is presented a command performs it. -/
theorem step_present {s : State} {f : Frame} {ms : List HostMove} {i : Instr} (hj : s.job = none)
    (hm : s.moves = .present f :: ms) (hd : decode f = .ok i) :
    step s = exec i { s with moves := ms } := by
  unfold step State.turn
  simp [hm, hj, State.takeFrame, hd]

end Sys2Proof.Machine
end

