-- ==== Sys2Proof/Tests/Slice0.lean ====
section
/-! SUPPORT. Small tests. Expected values are the spec's: vectors S1 to S7, V1 to V76 of 95_test_vectors and
the worked examples of the command rules. The witness theorems at the end show that the hypotheses of each
statement can be met together. -/

namespace Sys2Proof.Machine

/-! ## Helpers -/

/-- The state an outcome goes on with. -/
def after (o : Host.Outcome State Fault Refusal) : State :=
  match o with
  | .next s => s
  | .fault _ => State.reset
  | .refused _ => State.reset

/-- S401: the Seiran state after `SEIRAN.INIT 401` (95_test_vectors). -/
def s401 : State := { State.reset with seiran := ⟨0x6C64F673ED93B6CC, 0x97C703D5F6C9D72B⟩ }

/-- P32: the SFC32 state after `SFC32.INIT_PRE` (95_test_vectors). -/
def p32 : State :=
  { State.reset with sfc32 := ⟨0xA3A3A6CD, 0x0E1AEC10, 0x928D4162, 0xD, 21, 9, 3⟩ }

/-- P64: the SFC64 state after `SFC64.INIT_PRE` (95_test_vectors). -/
def p64 : State :=
  { State.reset with
    sfc64 := ⟨0x4180E32D70F67FA6, 0x86DB6A44D267E09F, 0xFABFE46942A0C51B, 0xD, 24, 11, 3⟩ }

/-- A Seiran state. -/
def seiranAt (a b : Word64) : State := { State.reset with seiran := ⟨a, b⟩ }

/-- The default block with a frame presented. -/
def given (s : State) (f : Frame) : State := { s with moves := [.present f] }

/-! ## Well-formedness: the check for each engine refuses an ill-formed term (R48 (d)) -/

theorem test_wf_seiran : Instr.wellFormed (.seiranPack 1 63 false) = true ∧
    Instr.wellFormed (.seiranPack 1 64 false) = false := by decide

theorem test_wf_sfc32 : Instr.wellFormed (.sfc32Pack 1 31 true) = true ∧
    Instr.wellFormed (.sfc32Pack 1 32 true) = false := by decide

theorem test_wf_sfc64 : Instr.wellFormed (.sfc64Pack 1 63 false) = true ∧
    Instr.wellFormed (.sfc64Pack 1 64 false) = false := by decide

/-! ## Decoding: a frame written out from R37 and R46 for every command -/

theorem test_decode_seiran_words :
    decode 0x0000000000000000_0000000000000000_0000000000000000_00 = .ok .seiranNext ∧
    decode 0x0000000000000000_0000000000000000_0000000000000191_01 = .ok (.seiranInit 401) ∧
    decode 0x0000000000000000_0000000000000000_0000000000000000_04 = .ok .seiranJump32 ∧
    decode 0x0000000000000000_0000000000000000_0000000000000000_05 = .ok .seiranJump64 ∧
    decode 0x0000000000000000_0000000000000000_0000000000000000_06 = .ok .seiranJump96 ∧
    decode 0x0000000000000000_0000000000000107_000000000000000C_08 = .ok (.seiranPack 12 7 true) ∧
    decode 0x0000000000000000_0000000000000000_0000000000000000_09 = .ok .seiranNextBool ∧
    decode 0x0000000000000000_0000000000000000_0000000000000000_0A = .ok .seiranNextU8 ∧
    decode 0x0000000000000000_0000000000000000_0000000000000000_0B = .ok .seiranNextU16 ∧
    decode 0x0000000000000000_0000000000000000_0000000000000000_0C = .ok .seiranNextU32 ∧
    decode 0x0000000000000000_0000000000000000_0000000000000000_0D = .ok .seiranNextU64 := by
  refine ⟨?_, ?_, ?_, ?_, ?_, ?_, ?_, ?_, ?_, ?_, ?_⟩ <;> rfl

theorem test_decode_sfc32_words :
    decode 0x0000000000000000_0000000000000000_0000000000000000_40 = .ok .sfc32Next ∧
    decode 0x0000000000000000_0000000000000000_00000000BEEF5EED_41 = .ok (.sfc32Init 0xBEEF5EED) ∧
    decode 0x0000000000000003_0000000000000002_0000000000000001_42 = .ok (.sfc32Init3 1 2 3) ∧
    decode 0x0000000000000000_0000000000000000_0000000000000000_43 = .ok .sfc32InitPre ∧
    decode 0x0000000000000000_0000000000000008_0000000000000005_48 = .ok (.sfc32Pack 5 8 false) ∧
    decode 0x0000000000000000_0000000000000000_0000000000000000_49 = .ok .sfc32NextBool ∧
    decode 0x0000000000000000_0000000000000000_0000000000000000_4A = .ok .sfc32NextU8 ∧
    decode 0x0000000000000000_0000000000000000_0000000000000000_4B = .ok .sfc32NextU16 ∧
    decode 0x0000000000000000_0000000000000000_0000000000000000_4C = .ok .sfc32NextU32 ∧
    decode 0x0000000000000000_0000000000000000_0000000000000000_4D = .ok .sfc32NextU64 := by
  refine ⟨?_, ?_, ?_, ?_, ?_, ?_, ?_, ?_, ?_, ?_⟩ <;> rfl

theorem test_decode_sfc64_words :
    decode 0x0000000000000000_0000000000000000_0000000000000000_80 = .ok .sfc64Next ∧
    decode 0x0000000000000000_0000000000000000_CAFEF00DBEEF5EED_81 = .ok (.sfc64Init 0xCAFEF00DBEEF5EED) ∧
    decode 0x20C6ED6D9D7B8D41_ABF4641A2C71BA49_DB2CD7E7B0F478BE_82 =
      .ok (.sfc64Init3 0xDB2CD7E7B0F478BE 0xABF4641A2C71BA49 0x20C6ED6D9D7B8D41) ∧
    decode 0x0000000000000000_0000000000000000_0000000000000000_83 = .ok .sfc64InitPre ∧
    decode 0x0000000000000000_0000000000000100_0000000000000005_88 = .ok (.sfc64Pack 5 0 true) ∧
    decode 0x0000000000000000_0000000000000000_0000000000000000_89 = .ok .sfc64NextBool ∧
    decode 0x0000000000000000_0000000000000000_0000000000000000_8A = .ok .sfc64NextU8 ∧
    decode 0x0000000000000000_0000000000000000_0000000000000000_8B = .ok .sfc64NextU16 ∧
    decode 0x0000000000000000_0000000000000000_0000000000000000_8C = .ok .sfc64NextU32 ∧
    decode 0x0000000000000000_0000000000000000_0000000000000000_8D = .ok .sfc64NextU64 := by
  refine ⟨?_, ?_, ?_, ?_, ?_, ?_, ?_, ?_, ?_, ?_⟩ <;> rfl

/-- V6 and the reserved opcodes of V7. -/
theorem test_decode_reserved :
    decode 0x0000000000000007_0000000000000007_0000000000000007_02 = .error .badOp ∧
    decode 0x44 = .error .badOp ∧ decode 0x10 = .error .badOp ∧ decode 0xC0 = .error .badOp ∧
    decode 0x07 = .error .badOp ∧ decode 0x0E = .error .badOp ∧ decode 0xFF = .error .badOp := by
  refine ⟨?_, ?_, ?_, ?_, ?_, ?_, ?_⟩ <;> rfl

/-- V8 to V13. -/
theorem test_decode_bad_operands :
    decode 0x0000000000000000_0000000000000000_0000000000000001_00 = .error .badOperand ∧
    decode 0x0000000000000000_0000000000000000_0000000100000000_41 = .error .badOperand ∧
    decode 0x0000000000000000_0000000000000020_0000000000000001_48 = .error .badOperand ∧
    decode 0x0000000000000000_0000000000000040_0000000000000001_08 = .error .badOperand ∧
    decode 0x0000000000000000_0000000000000088_0000000000000001_88 = .error .badOperand ∧
    decode 0x0000000000000001_0000000000000008_0000000000000001_88 = .error .badOperand := by
  refine ⟨?_, ?_, ?_, ?_, ?_, ?_⟩ <;> rfl

/-- R73: `arg1 = nbits + 256 * filt`; V3's frame. -/
theorem test_encode_pack : encode (.seiranPack 12 7 true) =
    0x0000000000000000_0000000000000107_000000000000000C_08 := by decide

/-! ## Refusals and reset -/

/-- Program 4, step 10: `BAD_OP`, data 0. -/
theorem test_step_bad_op :
    (after (step (given s401 0x0000000000000007_0000000000000007_0000000000000007_02))).out =
      [.response .badOp 0] := by decide

/-- V8: `BAD_OPERAND`, state unchanged. -/
theorem test_step_bad_operand : after (step (given s401 0x0000000000000000_0000000000000000_0000000000000001_00)) =
    { s401 with out := [.response .badOperand 0] } := by decide

/-- R24, R108: reset zeroes `d` and keeps `p`. -/
theorem test_step_reset :
    (after (step { p32 with moves := [.reset 0] })).sfc32 = ⟨0, 0, 0, 0, 21, 9, 3⟩ := by decide

/-! ## Seiran128 -/

/-- V18: both multiply-adds wrap. -/
theorem test_seiranInit : (after (exec (.seiranInit 0xFFFFFFFFFFFFFFFF) State.reset)).seiran =
    ⟨0xBBB38751AAD20222, 0xB1A9556F832ABF49⟩ := by decide

/-- S1. -/
theorem test_seiranInit_401 : (after (exec (.seiranInit 401) State.reset)).seiran = s401.seiran := by decide

/-- V26: every addition and the multiply wrap. -/
theorem test_seiranNext_wraps :
    after (exec .seiranNext (seiranAt 0xFFFFFFFFFFFFFFFF 0xFFFFFFFFFFFFFFFF)) =
      { seiranAt 0 0x1FF with out := [.response .ok 0xFFFFFFFDDFFFFFFE] } := by decide

/-- V25: the shift loses the top bit of `b`, the rotate keeps it. -/
theorem test_seiranNext_top_bit : after (exec .seiranNext (seiranAt 0 0x8000000000000000)) =
    { seiranAt 0x10000000 0 with out := [.response .ok 0x10000000] } := by decide

set_option maxRecDepth 20000 in
/-- V28. -/
theorem test_seiranJump32 : (after (exec .seiranJump32 s401)).seiran =
    ⟨0x0656D7C2B4E693C9, 0xB9080371213A877E⟩ := by decide

set_option maxRecDepth 20000 in
/-- V28. -/
theorem test_seiranJump64 : (after (exec .seiranJump64 s401)).seiran =
    ⟨0x188309EB483DAC28, 0xA687EE747A413797⟩ := by decide

set_option maxRecDepth 20000 in
/-- V28. -/
theorem test_seiranJump96 : (after (exec .seiranJump96 s401)).seiran =
    ⟨0x22092FDC209146C2, 0x381FE0875839B2D0⟩ := by decide

/-- V71. -/
theorem test_seiranNextBool : (after (exec .seiranNextBool s401)).out = [.response .ok 1] := by decide

/-- V71. -/
theorem test_seiranNextU8 : (after (exec .seiranNextU8 s401)).out = [.response .ok 0x5F] := by decide

/-- V71. -/
theorem test_seiranNextU16 : (after (exec .seiranNextU16 s401)).out = [.response .ok 0x305F] := by decide

/-- V71. -/
theorem test_seiranNextU32 : (after (exec .seiranNextU32 s401)).out = [.response .ok 0xD245305F] := by decide

/-- V71. -/
theorem test_seiranNextU64 : (after (exec .seiranNextU64 s401)).out =
    [.response .ok 0x8D4E3629D245305F] := by decide

/-! ## SFC32 -/

/-- V55: shift amounts at their largest. -/
theorem test_sfc32Next_31 :
    after (exec .sfc32Next { State.reset with sfc32 := ⟨1, 0x80000001, 0x80000001, 4, 31, 31, 31⟩ }) =
      { State.reset with
        sfc32 := ⟨0x80000000, 1, 0x40000006, 5, 31, 31, 31⟩, out := [.response .ok 0x80000006] } := by
  decide

/-- V54: shift amounts zero. -/
theorem test_sfc32Next_0 :
    (after (exec .sfc32Next { State.reset with sfc32 := ⟨1, 2, 3, 4, 0, 0, 0⟩ })).sfc32 =
      ⟨0, 6, 0xA, 5, 0, 0, 0⟩ := by decide

/-- V59. -/
theorem test_sfc32Init3 : (after (exec (.sfc32Init3 1 2 3) p32)).sfc32 =
    ⟨0x84F665DD, 0xEE73D557, 0xDCFC7941, 0xD, 21, 9, 3⟩ := by decide

/-- V61. -/
theorem test_sfc32Init : (after (exec (.sfc32Init 1) p32)).sfc32 =
    ⟨0xB983E95D, 0x38A9F46F, 0xA17AEDCD, 0xD, 21, 9, 3⟩ := by decide

/-- S6. -/
theorem test_sfc32InitPre : (after (exec .sfc32InitPre State.reset)).sfc32 = p32.sfc32 := by decide

/-- V72. -/
theorem test_sfc32NextBool : (after (exec .sfc32NextBool p32)).out = [.response .ok 0] := by decide

/-- V72. -/
theorem test_sfc32NextU8 : (after (exec .sfc32NextU8 p32)).out = [.response .ok 0xEA] := by decide

/-- V72. -/
theorem test_sfc32NextU16 : (after (exec .sfc32NextU16 p32)).out = [.response .ok 0x92EA] := by decide

/-- V72. -/
theorem test_sfc32NextU32 : (after (exec .sfc32NextU32 p32)).out = [.response .ok 0xB1BE92EA] := by decide

/-- V73: two steps, the first word low. -/
theorem test_sfc32NextU64 : after (exec .sfc32NextU64 p32) =
    { p32 with
      sfc32 := ⟨0x26E437D4, 0xCE980922, 0xC770F002, 0xF, 21, 9, 3⟩
      out := [.response .ok 0x35152DE6B1BE92EA] } := by decide

/-! ## SFC64 -/

/-- V58: the shift loses the top bit, the rotate keeps it, `d` wraps. -/
theorem test_sfc64Next_top_bit :
    after (exec .sfc64Next
      { State.reset with
        sfc64 := ⟨0, 0x8000000000000000, 0x8000000000000000, 0xFFFFFFFFFFFFFFFF, 24, 11, 3⟩ }) =
      { State.reset with
        sfc64 := ⟨0x8010000000000000, 0x8000000000000000, 0x80000000007FFFFF, 0, 24, 11, 3⟩
        out := [.response .ok 0x7FFFFFFFFFFFFFFF] } := by decide

/-- S5. -/
theorem test_sfc64Next : (after (exec .sfc64Next p64)).out = [.response .ok 0xC85C4D72435E6052] := by decide

/-- S7: `s1`, `s2`, `s3` go to `a`, `b`, `c` in that order. -/
theorem test_sfc64Init3 :
    (after (exec (.sfc64Init3 15793235383387715774 12390638538380655177 2361836109651742017) p64)).sfc64 =
      ⟨0x8A31735537845685, 0x07642B0A81E60CA0, 0xCCF81E5762DD61A2, 0xD, 24, 11, 3⟩ := by decide

/-- V64. -/
theorem test_sfc64Init : (after (exec (.sfc64Init 1) p64)).sfc64 =
    ⟨0x7FA42FBBE2305565, 0xBFDB9C72B3A8A619, 0x439DF9AF71DB897F, 0xD, 24, 11, 3⟩ := by decide

/-- S5. -/
theorem test_sfc64InitPre : (after (exec .sfc64InitPre State.reset)).sfc64 = p64.sfc64 := by decide

/-- V74. -/
theorem test_sfc64NextBool : (after (exec .sfc64NextBool p64)).out = [.response .ok 0] := by decide

/-- V74. -/
theorem test_sfc64NextU8 : (after (exec .sfc64NextU8 p64)).out = [.response .ok 0x52] := by decide

/-- V74. -/
theorem test_sfc64NextU16 : (after (exec .sfc64NextU16 p64)).out = [.response .ok 0x6052] := by decide

/-- V74. -/
theorem test_sfc64NextU32 : (after (exec .sfc64NextU32 p64)).out = [.response .ok 0x435E6052] := by decide

/-- V74. -/
theorem test_sfc64NextU64 : (after (exec .sfc64NextU64 p64)).out =
    [.response .ok 0xC85C4D72435E6052] := by decide

/-! ## PACK -/

/-- V44: `len = 0` responds 0 with no step. -/
theorem test_seiranPack_len_0 : after (exec (.seiranPack 0 8 false) s401) =
    { s401 with out := [.response .ok 0] } := by decide

/-- V40: one byte of the first word, then the response. -/
theorem test_seiranPack_one_byte :
    (after (steps 2 (after (exec (.seiranPack 1 8 false) s401)))).out = [.lane 0 0x5F, .response .ok 1] := by
  decide

/-- V36: 31 of 32 bits of a word. -/
theorem test_sfc32Pack_31 :
    (after (step (after (exec (.sfc32Pack 2 31 false) p32)))).out = [.lane 0 0x31BE92EA] := by decide

/-- V31: `0D`, the fourth candidate of the first word, is rejected and has used its bits. -/
theorem test_sfc32Pack_rejects :
    after (step { p32 with job := some (.sfc32 ⟨8, 7, true, 11, 0xB1BE92EA >>> 21, 3⟩) }) =
      { p32 with job := some (.sfc32 ⟨8, 7, true, 4, 0xB1BE92EA >>> 28, 3⟩) } := by decide

/-- V15: `nbits = 0` responds 0 with no lane and no step. -/
theorem test_sfc64Pack_nbits_0 : after (exec (.sfc64Pack 5 0 true) p64) =
    { p64 with out := [.response .ok 0] } := by decide

/-- V38: bit 63 of the second word is dropped, and the command ends. -/
theorem test_sfc64Pack_63 :
    (after (steps 3 (after (exec (.sfc64Pack 2 63 false) p64)))).out =
      [.lane 0 0x485C4D72435E6052, .lane 1 0x578AB8DCF2A49A64, .response .ok 2] := by decide

/-- R109: a reset after the last lane and before the response; V38's lanes stay, no response is given. -/
theorem test_sfc64Pack_reset_before_response :
    after (steps 3 (after (exec (.sfc64Pack 2 63 false) { p64 with moves := [.reset 2] }))) =
      { p64 with
        sfc64 := ⟨0, 0, 0, 0, 24, 11, 3⟩
        out := [.lane 0 0x485C4D72435E6052, .lane 1 0x578AB8DCF2A49A64], freeIx := 1 } := by decide

/-! ## What the host asks of the fetch -/

/-- The table's row of `SFC64.NEXT` runs as the first command after reset (R70 item 2: the word is 0). -/
theorem test_placed_row_runs : decodeTableWord 8 0x80 = some .sfc64Next ∧
    (after (step (State.reset.withFetchWord 8 0x80))).sfc64.d = 1 := by decide

/-! ## Witnesses: the hypotheses of the statements can be met -/

/-- A busy SFC32 block, legal and in order: `SFC32.PACK len=8 nbits=7 filt=1` after one lane. -/
def busy32 : State :=
  { p32 with job := some (.sfc32 ⟨8, 7, true, 25, 0xB1BE92EA >>> 7, 1⟩), out := [.lane 0 0x6A] }

theorem witness_DecodeEncodeRoundTrip : Instr.wellFormed (.sfc32Pack 5 31 true) = true := by decide

theorem witness_AcceptedFrameIsItsEncoding : decode 0x40 = .ok .sfc32Next := rfl

theorem witness_ReservedOpcodesAreBadOp : (given s401 0xC0).Idle ∧ (given s401 0xC0).moves = [.present 0xC0] ∧
    Spec.reservedOp (Frame.op 0xC0) = true := by decide

theorem witness_IllegalOperandsAreBadOperand :
    Spec.reservedOp (Frame.op 0x0000000000000000_0000000000000000_0000000000000001_00) = false ∧
    Spec.unusedNotZero 0x0000000000000000_0000000000000000_0000000000000001_00 ∧
    Spec.seedTooWide 0x0000000000000000_0000000000000000_0000000100000000_41 ∧
    Spec.packReservedSet 0x0000000000000000_0000000000000200_0000000000000001_88 ∧
    Spec.nbitsTooWide 0x0000000000000000_0000000000000020_0000000000000001_48 ∧
    ¬ Spec.nbitsTooWide 0x0000000000000000_000000000000001F_0000000000000001_48 := by decide

theorem witness_RefusedFrameChangesNothing : (given s401 0x44).Idle ∧
    (given s401 0x44).moves = [.present 0x44] ∧ decode 0x44 = .error .badOp := ⟨rfl, rfl, rfl⟩

theorem witness_NonzeroStatusMeansNothingChanged :
    ∃ t, step (given s401 0x44) = .next t ∧ t.out = (given s401 0x44).out ++ [.response .badOp 0] ∧
      Status.badOp.code ≠ 0 := ⟨_, rfl, rfl, by decide⟩

theorem witness_StepRunsDecodedCommand : (given s401 0x04).Idle ∧
    (given s401 0x04).moves = [.present 0x04] ∧ decode 0x04 = .ok .seiranJump32 := ⟨rfl, rfl, rfl⟩

theorem witness_PlacedFrameRunsNext : decodeTableWord 8 0x4D = some .sfc32NextU64 := by decide

theorem witness_IdleBlockWaits : s401.Idle ∧ s401.moves = [] := by decide

theorem witness_BusyBlockTakesNoFrame : ({ busy32 with moves := [.present 0x40] } : State).job =
    some (.sfc32 ⟨8, 7, true, 25, 0xB1BE92EA >>> 7, 1⟩) ∧
    ({ busy32 with moves := [.present 0x40] } : State).noReset = true := by decide

theorem witness_FramesRunAsCommandsInOrder :
    (∀ i ∈ [Instr.seiranInit 401, .seiranJump32, .sfc64InitPre],
      i.wellFormed = true ∧ i.isPack = false) ∧
    ({ s401 with
        moves := [Instr.seiranInit 401, .seiranJump32, .sfc64InitPre].map (fun i => .present (encode i)) ++
          [.reset 0] } : State).Idle := by decide

theorem witness_ResetEventClearsStateWords :
    ({ busy32 with moves := [.reset 0] } : State).moves = [.reset 0] := by decide

theorem witness_LaterResetEndsAnyCommand :
    ({ busy32 with moves := [.reset 5] } : State).moves = [.reset 5] ∧
    ({ s401 with moves := [.cut 0x04] } : State).Idle := by decide

theorem witness_ResetStateValues : construct ⟨31, 31, 31⟩ ⟨63, 63, 63⟩ =
    some { State.reset with sfc32 := ⟨0, 0, 0, 0, 31, 31, 31⟩, sfc64 := ⟨0, 0, 0, 0, 63, 63, 63⟩ } := by decide

/-- Both sides of the bound. -/
theorem witness_ConstructionTakesLegalTriplesOnly :
    (construct ⟨31, 0, 31⟩ ⟨63, 0, 63⟩).isSome = true ∧ construct ⟨32, 9, 3⟩ ⟨24, 11, 3⟩ = none ∧
    construct ⟨21, 9, 3⟩ ⟨24, 64, 3⟩ = none := by decide

theorem witness_StepKeepsInvariant : busy32.Inv ∧ ∃ t, step busy32 = .next t := ⟨by decide, _, rfl⟩

theorem witness_BuiltBlockMeetsInvariants : (construct ⟨0, 0, 0⟩ ⟨0, 0, 0⟩).isSome = true := by decide

theorem witness_StepKeepsOutputInOrder : busy32.StreamOk ∧ ∃ t, step busy32 = .next t :=
  ⟨by decide, _, rfl⟩

theorem witness_DeliveredOutputStays : ∃ t, step busy32 = .next t := ⟨_, rfl⟩

theorem witness_ParametersNeverChange : ∃ t, step (given p32 0x42) = .next t := ⟨_, rfl⟩

theorem witness_OtherEnginesUntouched : ∃ t, exec .sfc32NextU64 p32 = .next t ∧
    Instr.sfc32NextU64.engine ≠ .seiran ∧ Instr.sfc32NextU64.engine ≠ .sfc64 ∧
    Instr.sfc64Next.engine ≠ .sfc32 := ⟨_, rfl, by decide⟩

/-- Two states that differ in another engine, and two jobs that differ in a residue about to be overwritten. -/
theorem witness_CommandReadsItsOwnEngineOnly :
    s401.agreeOn Instr.seiranNext.engine { p32 with seiran := s401.seiran } ∧ s401.sfc32 ≠ p32.sfc32 ∧
    jobsAlike s401.job p32.job ∧
    jobsAlike (some (.seiran ⟨8, 7, true, 1, 1, 3⟩)) (some (.seiran ⟨8, 7, true, 1, 0, 3⟩)) :=
  ⟨rfl, by decide, trivial, rfl, .inr (by decide)⟩

theorem witness_OneResponsePerCommand : ∃ t, exec (.sfc32Pack 1 32 false) p32 = .next t ∧
    Instr.isPack (.sfc32Pack 1 32 false) = true ∧ Instr.isPack .sfc32Next = false :=
  ⟨_, rfl, by decide⟩

theorem witness_ShiftsAndRotateMatchSpec : 0 < 31 ∧ 31 < 32 := by decide

theorem witness_SfcStepMatchesSpec : p32.sfc32.Legal ∧ p64.sfc64.Legal := by decide

theorem witness_SeiranJumpResults : (0x688E6BFC19485AB1_40165CBAE9CA6DEB : BitVec 128).getLsbD 0 = true ∧
    (0x2FE2DE5C2E12F601_F4DF34E424CA5C56 : BitVec 128).getLsbD 0 = false := by decide

theorem witness_ExtractResults :
    (Instr.seiranNextU64, 64) ∈ [(Instr.seiranNextBool, 1), (.seiranNextU64, 64)] ∧
    (Instr.sfc32NextU32, 32) ∈ [(Instr.sfc32NextBool, 1), (.sfc32NextU32, 32)] ∧
    (Instr.sfc64NextU8, 8) ∈ [(Instr.sfc64NextU8, 8), (.sfc64NextU64, 64)] := by decide

theorem witness_SfcSeedingResults : Instr.sfc32InitPre = .sfc32InitPre ∧ (0xBEEF5EED : Word32) = 0xBEEF5EED ∧
    Instr.sfc64Init3 1 2 3 = .sfc64Init3 1 2 3 := by decide

theorem witness_PackEdgeCases : Engine.sfc32.width ≤ (32#7).toNat ∧ (0#7).toNat < Engine.sfc32.width ∧
    (31#7).toNat < Engine.sfc32.width ∧ Engine.seiran.width ≤ (64#7).toNat := by decide

theorem witness_PackBeginsItsLoop : (31#7).toNat < Engine.sfc32.width ∧ (31#7) ≠ 0 ∧ (1#64) ≠ 0 := by decide

/-- P32 and `len = 2, nbits = 7, filt = 1`: of the first two candidates `6A 25` both are accepted (V31), so
`n = 1` meets both inner hypotheses. -/
theorem witness_PackDeliversAcceptedCandidates : (7#7).toNat < 32 ∧ (7#7) ≠ 0 ∧ (2#64) ≠ 0 ∧
    p32.noReset = true ∧ (acceptedOf sfcStep p32.sfc32 7 true 1).length < (2#64).toNat ∧
    acceptedOf sfcStep p32.sfc32 7 true 2 = [0x6A, 0x25] := by decide

/-- The same `PACK` with a reset between its last lane and its response (`n = 2`); a reset before the first lane
(`n = 0`) meets the last hypothesis too. -/
theorem witness_ResetEndsPackKeepingItsLanes : (7#7).toNat < 32 ∧ (7#7) ≠ 0 ∧ (2#64) ≠ 0 ∧
    ({ p32 with moves := [.reset 2] } : State).moves = [.reset 2] ∧
    (∀ m < 2, (acceptedOf sfcStep p32.sfc32 7 true m).length < (2#64).toNat) ∧
    ∀ m < 0, (acceptedOf sfcStep p32.sfc32 7 true m).length < (2#64).toNat := by decide

theorem witness_UnfilteredPackEnds : (63#7).toNat < 64 ∧ (63#7) ≠ 0 ∧ (5#64) ≠ 0 ∧ s401.noReset = true := by
  decide

theorem witness_FilteredLanesArePrintable :
    .lane 0 0x6A ∈ (packPass sfcStep p32.sfc32 ⟨8, 7, true, 0, 0, 0⟩).2.1 := by decide

theorem witness_NarrowFilteredPackNeverEnds : (5#7) ≠ 0 ∧ (5#7).toNat ≤ 5 ∧ (1#64) ≠ 0 ∧
    p64.noReset = true := by decide

theorem witness_ZeroSeiranFilteredPackNeverEnds : State.reset.seiran = { a := 0, b := 0 } ∧ (7#7) ≠ 0 ∧
    (7#7).toNat < 64 ∧ (1#64) ≠ 0 ∧ State.reset.noReset = true := by decide

theorem witness_PackedBytesAreNextU64 : p32.noReset = true := by decide

theorem witness_PackResidueIsNotKept : s401.noReset = true := by decide

theorem witness_JumpCommutesWithNext : Instr.seiranJump96 ∈
      [Instr.seiranJump32, .seiranJump64, .seiranJump96] ∧
    (∃ t, execs [.seiranJump96, .seiranNext] s401 = .next t) ∧
    ∃ u, execs [.seiranNext, .seiranJump96] s401 = .next u := ⟨by decide, ⟨_, rfl⟩, _, rfl⟩

theorem witness_ZeroSeiranStaysZero : Instr.seiranJump32.engine = .seiran ∧
    Instr.seiranJump32.isPack = false ∧ (∀ seed, Instr.seiranJump32 ≠ .seiranInit seed) ∧
    State.reset.seiran = { a := 0, b := 0 } ∧ (63#7) ≠ 0 ∧ (63#7).toNat < 64 ∧ (5#64) ≠ 0 ∧
    State.reset.noReset = true := ⟨rfl, rfl, nofun, rfl, by decide⟩

theorem witness_NonzeroSeiranStaysNonzero : (∃ t, exec .seiranJump32 s401 = .next t) ∧
    s401.seiran ≠ { a := 0, b := 0 } := ⟨⟨_, rfl⟩, by decide⟩

theorem witness_SameSeedSameOutputs : (∃ seed, Instr.seiranInit 401 = .seiranInit seed) ∧
    (∃ s1 s2 s3, Instr.sfc32Init3 1 2 3 = .sfc32Init3 s1 s2 s3) ∧ p32.sfc32.pqr = s401.sfc32.pqr ∧
    (∃ seed, Instr.sfc64Init 7 = .sfc64Init seed) ∧ p64.sfc64.pqr = s401.sfc64.pqr :=
  ⟨⟨_, rfl⟩, ⟨_, _, _, rfl⟩, by decide, ⟨_, rfl⟩, by decide⟩

end Sys2Proof.Machine
end

/-! # Scope (00_scope.md): R8 construction, R16 shifts and rotate, R22 and R23 invariant of the state -/

namespace Sys2Proof.Machine

/-! ## Shifts and rotate on numbers (R16) -/

@[simp] theorem shl_toNat {w : Nat} (x : BitVec w) (k : Nat) :
    (shl x k).toNat = Spec.shl w x.toNat k := by
  simp [shl, Spec.shl, Nat.shiftLeft_eq]

@[simp] theorem shr_toNat {w : Nat} (x : BitVec w) (k : Nat) :
    (shr x k).toNat = Spec.shr x.toNat k := by
  simp [shr, Spec.shr, Nat.shiftRight_eq_div_pow]

/-- A right shift by `k` leaves `k` bits fewer. -/
theorem Spec.shr_lt {x k n : Nat} (hx : x < 2 ^ n) (hk : k ≤ n) : Spec.shr x k < 2 ^ (n - k) := by
  apply Nat.div_lt_of_lt_mul
  rwa [← pow_add, Nat.add_sub_cancel' hk]

/-- A left shift by `k` has no bit below `k`, and what the opposite right shift leaves lies below `k`. -/
theorem Spec.shl_and_shr {W x k : Nat} (hx : x < 2 ^ W) (hk : k ≤ W) :
    Spec.shl W x k &&& Spec.shr x (W - k) = 0 := by
  have hshr : Spec.shr x (W - k) < 2 ^ k := by
    have := Spec.shr_lt hx (Nat.sub_le W k)
    rwa [Nat.sub_sub_self hk] at this
  apply Nat.eq_of_testBit_eq
  intro i
  rw [Nat.testBit_and, Nat.zero_testBit]
  by_cases hi : i < k
  · simp [Spec.shl, Nat.testBit_mod_two_pow, Nat.testBit_mul_two_pow, hi]
  · rw [Nat.testBit_eq_false_of_lt (hshr.trans_le (Nat.pow_le_pow_right two_pos (by omega))),
      Bool.and_false]

/-- The sum of a rotate does not wrap, because its summands share no bit. -/
theorem rotl_toNat {w : Nat} (x : BitVec w) {k : Nat} (hk : k < w) :
    (rotl x k).toNat = Spec.rotl w x.toNat k := by
  have hdisj : shl x k &&& shr x (w - k) = 0 := by
    apply BitVec.eq_of_toNat_eq
    simpa using Spec.shl_and_shr x.isLt hk.le
  unfold rotl Spec.rotl
  split
  · rfl
  · rw [BitVec.toNat_add_of_and_eq_zero hdisj, shl_toNat, shr_toNat]

/-- Settles O26: the shifts are read off `BitVec`, the rotate from the disjointness of its summands. -/
theorem shiftsAndRotateMatchSpec : Obligations.ShiftsAndRotateMatchSpec := fun _ x _ hk =>
  ⟨shl_toNat x _, shr_toNat x _, rotl_toNat x hk, fun _ => Spec.shl_and_shr x.isLt hk.le⟩

/-! ## Construction (R8, R22) -/

theorem construct_of_legal {t32 : Pqr 32} {t64 : Pqr 64} (h : t32.Legal ∧ t64.Legal) :
    construct t32 t64 = some { State.reset with sfc32 := Sfc.zeroed t32, sfc64 := Sfc.zeroed t64 } :=
  if_pos h

theorem construct_of_not_legal {t32 : Pqr 32} {t64 : Pqr 64} (h : ¬(t32.Legal ∧ t64.Legal)) :
    construct t32 t64 = none :=
  if_neg h

/-- Settles O17: both triples legal, some member out of range, and the spec's default triples. -/
theorem constructionTakesLegalTriplesOnly : Obligations.ConstructionTakesLegalTriplesOnly := by
  refine ⟨fun t32 t64 => ⟨fun h => ⟨_, construct_of_legal h⟩, fun h => construct_of_not_legal ?_⟩, ?_⟩
  · rintro ⟨⟨hp32, hq32, hr32⟩, hp64, hq64, hr64⟩
    omega
  · exact construct_of_legal (t32 := Config.sfc32Pqr) (t64 := Config.sfc64Pqr) (by decide)

/-! ## What a command can do -/

@[simp] theorem sfcStep_pqr {w : Nat} (e : Sfc w) : (sfcStep e).2.pqr = e.pqr := rfl

@[simp] theorem Sfc.cleared_pqr {w : Nat} (e : Sfc w) : e.cleared.pqr = e.pqr := rfl

/-- Everything a command can do: give its engine new words, an SFC engine's parameter words kept, and
respond; or, for a `PACK`, start it (R21, R42, R72). -/
theorem exec_cases {i : Instr} {s t : State} (h : exec i s = .next t) :
    (i.engine = .seiran ∧ i.isPack = false ∧ ∃ e d, t = { s with seiran := e }.respond d) ∨
    (i.engine = .sfc32 ∧ i.isPack = false ∧
      ∃ e d, e.pqr = s.sfc32.pqr ∧ t = { s with sfc32 := e }.respond d) ∨
    (i.engine = .sfc64 ∧ i.isPack = false ∧
      ∃ e d, e.pqr = s.sfc64.pqr ∧ t = { s with sfc64 := e }.respond d) ∨
    (∃ len nbits filt, i = .seiranPack len nbits filt ∧ t = s.packStart .seiran len nbits filt) ∨
    (∃ len nbits filt, i = .sfc32Pack len nbits filt ∧ t = s.packStart .sfc32 len nbits filt) ∨
    (∃ len nbits filt, i = .sfc64Pack len nbits filt ∧ t = s.packStart .sfc64 len nbits filt) := by
  have ht {u : State} (hu : exec i s = .next u) : t = u := Host.Outcome.next.inj (h.symm.trans hu)
  cases i
  case seiranPack len nbits filt =>
    exact .inr <| .inr <| .inr <| .inl ⟨len, nbits, filt, rfl, ht rfl⟩
  case sfc32Pack len nbits filt =>
    exact .inr <| .inr <| .inr <| .inr <| .inl ⟨len, nbits, filt, rfl, ht rfl⟩
  case sfc64Pack len nbits filt =>
    exact .inr <| .inr <| .inr <| .inr <| .inr ⟨len, nbits, filt, rfl, ht rfl⟩
  case sfc32Init | sfc32Init3 | sfc32InitPre =>
    exact .inr <| .inl ⟨rfl, rfl, _, _, sfcInit3_pqr .., ht rfl⟩
  case sfc32Next | sfc32NextBool | sfc32NextU8 | sfc32NextU16 | sfc32NextU32 =>
    exact .inr <| .inl ⟨rfl, rfl, _, _, sfcStep_pqr _, ht rfl⟩
  case sfc32NextU64 =>
    exact .inr <| .inl ⟨rfl, rfl, _, _, (sfcStep_pqr _).trans (sfcStep_pqr _), ht rfl⟩
  case sfc64Init | sfc64Init3 | sfc64InitPre =>
    exact .inr <| .inr <| .inl ⟨rfl, rfl, _, _, sfcInit3_pqr .., ht rfl⟩
  case sfc64Next | sfc64NextBool | sfc64NextU8 | sfc64NextU16 | sfc64NextU32 | sfc64NextU64 =>
    exact .inr <| .inr <| .inl ⟨rfl, rfl, _, _, sfcStep_pqr _, ht rfl⟩
  all_goals exact .inl ⟨rfl, rfl, _, _, ht rfl⟩

/-! ## The parameter words are kept (R22) -/

/-- Legality is a matter of the parameter words. -/
theorem Sfc.Legal.of_pqr_eq {w : Nat} {e e' : Sfc w} (he : e.Legal) (h : e'.pqr = e.pqr) : e'.Legal := by
  simp only [Sfc.pqr, Pqr.mk.injEq] at h
  obtain ⟨hp, hq, hr⟩ := h
  rwa [Sfc.Legal, hp, hq, hr]

/-- A pass makes at most one step of its engine. -/
theorem packPass_engine {w : Nat} {σ : Type} (next : σ → BitVec w × σ) (e : σ) (j : PackJob w) :
    (packPass next e j).1 = e ∨ (packPass next e j).1 = (next e).2 := by
  by_cases h : j.idx < j.len
  · rw [packPass_of_lt next e h, packLoad_engine]
    split
    · exact .inr rfl
    · exact .inl rfl
  · exact .inl (by rw [packPass_done next e h])

@[simp] theorem packPass_sfc_pqr {w : Nat} (e : Sfc w) (j : PackJob w) :
    (packPass sfcStep e j).1.pqr = e.pqr := by
  obtain h | h := packPass_engine sfcStep e j <;> rw [h]
  exact sfcStep_pqr e

/-- Two states whose SFC engines hold the same parameter words. -/
def State.SamePqr (s t : State) : Prop :=
  t.sfc32.pqr = s.sfc32.pqr ∧ t.sfc64.pqr = s.sfc64.pqr

/-- Entering a `PACK`, in whichever way, writes no engine (R72). -/
theorem packStart_samePqr (s : State) {w : Nat} (mk : PackJob w → Job) (len : Word64)
    (nbits : BitVec 7) (filt : Bool) : s.SamePqr (s.packStart mk len nbits filt) := by
  obtain ⟨-, h⟩ | ⟨-, -, h⟩ | ⟨-, -, -, h⟩ := packStart_cases s mk len nbits filt <;> rw [h] <;>
    exact ⟨rfl, rfl⟩

/-- A pass keeps the parameter words of all engines. -/
theorem packStep_samePqr (s : State) (j : Job) : s.SamePqr (s.packStep j) := by
  cases j with
  | seiran j => exact ⟨rfl, rfl⟩
  | sfc32 j => exact ⟨packPass_sfc_pqr _ _, rfl⟩
  | sfc64 j => exact ⟨rfl, packPass_sfc_pqr _ _⟩

/-- No command writes a parameter word. -/
theorem exec_samePqr {i : Instr} {s t : State} (h : exec i s = .next t) : s.SamePqr t := by
  obtain ⟨-, -, e, d, rfl⟩ | ⟨-, -, e, d, he, rfl⟩ | ⟨-, -, e, d, he, rfl⟩ | hpack := exec_cases h
  · exact ⟨rfl, rfl⟩
  · exact ⟨he, rfl⟩
  · exact ⟨rfl, he⟩
  · obtain ⟨_, _, _, -, rfl⟩ | ⟨_, _, _, -, rfl⟩ | ⟨_, _, _, -, rfl⟩ := hpack <;>
      exact packStart_samePqr ..

/-- No step, a reset included, writes a parameter word (R22). -/
theorem step_samePqr {s t : State} (h : step s = .next t) : s.SamePqr t := by
  obtain ⟨ms, rfl⟩ | ⟨j, ms, -, rfl⟩ | ⟨ms, -, rfl⟩ | ⟨f, ms, e, -, -, -, rfl⟩ | ⟨f, ms, i, -, -, -, hx⟩ :=
    step_cases h
  · exact ⟨rfl, rfl⟩
  · exact packStep_samePqr _ j
  · exact ⟨rfl, rfl⟩
  · exact ⟨rfl, rfl⟩
  · exact exec_samePqr (s := { s with moves := ms }) hx

/-! ## A running `PACK` stays inside its loop (R23, R71) -/

/-- The job of a state, if there is one, is inside its loop. -/
def State.JobOk (s : State) : Prop := s.job.all Job.ok = true

/-- The loop is entered with nothing out and no residual bits (R71, R72). -/
theorem packBegin_ok {w : Nat} {len : Word64} {nbits : BitVec 7} (hw : nbits.toNat < w)
    (h0 : nbits ≠ 0) (filt : Bool) (n : Nat) : (packBegin w len nbits filt n).Ok := by
  have hpos : nbits.toNat ≠ 0 := fun h => h0 (BitVec.eq_of_toNat_eq h)
  exact ⟨Nat.one_le_iff_ne_zero.2 hpos, hw, Nat.zero_le _, len.isLt, Nat.zero_le _, .inl rfl⟩

/-- Cutting a candidate from a word with at least `nbits` residual bits, and none above them, leaves the
job inside its loop; `idx` is the new output index. -/
theorem PackJob.Ok.cut {w : Nat} {j : PackJob w} (hj : j.Ok) {rand : BitVec w} {bits idx : Nat}
    (hn : j.nbits ≤ bits) (hb : bits ≤ w) (hr : rand.toNat < 2 ^ bits) (hi : idx ≤ j.len) :
    ({ j with rand := shr rand j.nbits, bits := bits - j.nbits, idx := idx } : PackJob w).Ok := by
  obtain ⟨h1, hw, -, hlen, -, -⟩ := hj
  refine ⟨h1, hw, hi, hlen, (Nat.sub_le _ _).trans hb, .inr ?_⟩
  rw [shr_toNat]
  exact Spec.shr_lt hr hn

/-- What a pass leaves to do is inside the loop: the word it cuts is a fresh one with `W` bits, or the
residue, which still has `nbits`. -/
theorem packPass_ok {w : Nat} {σ : Type} (next : σ → BitVec w × σ) (e : σ) {j : PackJob w}
    (hj : j.Ok) : ∀ j' ∈ (packPass next e j).2.2, j'.Ok := by
  by_cases h : j.idx < j.len
  · obtain ⟨rand, bits, e', hload, hcut⟩ := packPass_cases next e h
    have hres : j.nbits ≤ bits ∧ bits ≤ w ∧ rand.toNat < 2 ^ bits := by
      obtain ⟨h1, hw, -, -, hb, hr⟩ := hj
      obtain ⟨-, -, rfl, -⟩ | ⟨hge, rfl, rfl, -⟩ := hload
      · exact ⟨hw.le, le_rfl, rand.isLt⟩
      · exact ⟨not_lt.1 hge, hb, hr.resolve_left (by omega)⟩
    obtain ⟨hn, hb, hr⟩ := hres
    obtain ⟨-, heq⟩ | ⟨-, heq⟩ := hcut <;> rw [heq] <;> rintro _ ⟨⟩
    · exact hj.cut hn hb hr h
    · exact hj.cut hn hb hr h.le
  · rw [packPass_done next e h]
    exact nofun

/-- `packPass_ok` for the job as a state holds it, on whichever engine. -/
theorem packPass_all_ok {w : Nat} {σ : Type} (next : σ → BitVec w × σ) (e : σ) {j : PackJob w}
    {mk : PackJob w → Job} (hmk : ∀ j, (mk j).ok = decide j.Ok) (hj : (mk j).ok = true) :
    ((packPass next e j).2.2.map mk).all Job.ok = true := by
  rw [hmk, decide_eq_true_eq] at hj
  rw [Option.all_map, Option.all_eq_true]
  exact fun j' hj' => (hmk j').trans (decide_eq_true (packPass_ok next e hj j' hj'))

theorem packStep_jobOk (s : State) {j : Job} (hj : j.ok = true) : (s.packStep j).JobOk := by
  cases j with
  | seiran j => exact packPass_all_ok _ _ (fun _ => rfl) hj
  | sfc32 j => exact packPass_all_ok _ _ (fun _ => rfl) hj
  | sfc64 j => exact packPass_all_ok _ _ (fun _ => rfl) hj

theorem packStart_jobOk {s : State} (hs : s.JobOk) {w : Nat} {mk : PackJob w → Job}
    (hmk : ∀ j, (mk j).ok = decide j.Ok) (len : Word64) (nbits : BitVec 7) (filt : Bool) :
    (s.packStart mk len nbits filt).JobOk := by
  obtain ⟨-, h⟩ | ⟨-, -, h⟩ | ⟨hw, h0, -, h⟩ := packStart_cases s mk len nbits filt <;> rw [h]
  · exact hs
  · exact hs
  · exact (hmk _).trans (decide_eq_true (packBegin_ok hw h0 filt _))

/-- A command leaves a job that is inside its loop: a `PACK` may begin one, no other command touches it. -/
theorem exec_jobOk {i : Instr} {s t : State} (hs : s.JobOk) (h : exec i s = .next t) : t.JobOk := by
  obtain ⟨-, -, e, d, rfl⟩ | ⟨-, -, e, d, -, rfl⟩ | ⟨-, -, e, d, -, rfl⟩ | hpack := exec_cases h
  · exact hs
  · exact hs
  · exact hs
  · obtain ⟨_, _, _, -, rfl⟩ | ⟨_, _, _, -, rfl⟩ | ⟨_, _, _, -, rfl⟩ := hpack <;>
      exact packStart_jobOk hs (fun _ => rfl) ..

/-- A step leaves a job that is inside its loop: a reset ends it, a pass goes on with it, a command may begin one. -/
theorem step_jobOk {s t : State} (hs : s.JobOk) (h : step s = .next t) : t.JobOk := by
  obtain ⟨ms, rfl⟩ | ⟨j, ms, hj, rfl⟩ | ⟨ms, -, rfl⟩ | ⟨f, ms, e, -, -, -, rfl⟩ | ⟨f, ms, i, -, -, -, hx⟩ :=
    step_cases h
  · exact rfl
  · exact packStep_jobOk _ (by simpa [State.JobOk, hj] using hs)
  · exact hs
  · exact hs
  · exact exec_jobOk (s := { s with moves := ms }) hs hx

/-- Settles O18: the parameter words are kept, so the shift amounts stay legal, and the job stays inside
its loop. -/
theorem stepKeepsInvariant : Obligations.StepKeepsInvariant := by
  intro s t ⟨h32, h64, hjob⟩ h
  obtain ⟨hp32, hp64⟩ := step_samePqr h
  exact ⟨h32.of_pqr_eq hp32, h64.of_pqr_eq hp64, step_jobOk hjob h⟩

end Sys2Proof.Machine

/-! # State (10_state.md): R17 what a step performs, R21 which engine a command reads and writes, R22 and R24
the parameter words and the block right after reset -/

namespace Sys2Proof.Machine

/-! ## A command writes its own engine only (R21) -/

/-- Entering a `PACK`, in whichever way, writes no engine and takes no move (R72). -/
theorem packStart_frame (s : State) {w : Nat} (mk : PackJob w → Job) (len : Word64) (nbits : BitVec 7)
    (filt : Bool) :
    (s.packStart mk len nbits filt).seiran = s.seiran ∧ (s.packStart mk len nbits filt).sfc32 = s.sfc32 ∧
    (s.packStart mk len nbits filt).sfc64 = s.sfc64 ∧ (s.packStart mk len nbits filt).moves = s.moves := by
  obtain ⟨-, h⟩ | ⟨-, -, h⟩ | ⟨-, -, -, h⟩ := packStart_cases s mk len nbits filt <;> rw [h] <;>
    exact ⟨rfl, rfl, rfl, rfl⟩

/-- Settles O23: a command other than `PACK` writes the one engine it names, the entry of a `PACK` none, a
pass the one that supplies its words. -/
theorem otherEnginesUntouched : Obligations.OtherEnginesUntouched := by
  refine ⟨fun i s t h => ?_,
    fun s => ⟨fun _ => ⟨rfl, rfl⟩, fun _ => ⟨rfl, rfl⟩, fun _ => ⟨rfl, rfl⟩⟩⟩
  obtain ⟨hu, -, e, d, rfl⟩ | ⟨hu, -, e, d, -, rfl⟩ | ⟨hu, -, e, d, -, rfl⟩ | hpack := exec_cases h
  · exact ⟨fun hne => absurd hu hne, fun _ => rfl, fun _ => rfl, rfl⟩
  · exact ⟨fun _ => rfl, fun hne => absurd hu hne, fun _ => rfl, rfl⟩
  · exact ⟨fun _ => rfl, fun _ => rfl, fun hne => absurd hu hne, rfl⟩
  · have hframe : t.seiran = s.seiran ∧ t.sfc32 = s.sfc32 ∧ t.sfc64 = s.sfc64 ∧ t.moves = s.moves := by
      obtain ⟨_, _, _, -, rfl⟩ | ⟨_, _, _, -, rfl⟩ | ⟨_, _, _, -, rfl⟩ := hpack <;>
        exact packStart_frame ..
    obtain ⟨hseiran, h32, h64, hmoves⟩ := hframe
    exact ⟨fun _ => hseiran, fun _ => h32, fun _ => h64, hmoves⟩

/-! ## A command reads its own engine only (R21, R34) -/

/-- Going from `s` to `t` and from `s'` to `t'` delivers the same outputs, leaves engine `u` the same in
both, and keeps the running jobs alike. -/
def SameEffect (u : Engine) (s s' t t' : State) : Prop :=
  ∃ o, t.out = s.out ++ o ∧ t'.out = s'.out ++ o ∧ t.agreeOn u t' ∧
    (jobsAlike s.job s'.job → jobsAlike t.job t'.job)

/-- The operands alone decide whether a `PACK` is answered at once or enters its loop (R72). -/
theorem packStart_decided {w : Nat} (mk : PackJob w → Job) (len : Word64) (nbits : BitVec 7)
    (filt : Bool) :
    (∃ st, ∀ s : State, s.packStart mk len nbits filt = s.deliver [.response st 0]) ∨
    (nbits ≠ 0 ∧ ∀ s : State, s.packStart mk len nbits filt =
      { s with job := some (mk (packBegin w len nbits filt s.freeIx)), freeIx := s.freeIx + 1 }) := by
  by_cases hw : w ≤ nbits.toNat
  · exact .inl ⟨.badOperand, fun _ => if_pos hw⟩
  · by_cases h0 : nbits = 0 ∨ len = 0
    · exact .inl ⟨.ok, fun _ => (if_neg hw).trans (if_pos h0)⟩
    · exact .inr ⟨fun h => h0 (.inl h), fun _ => (if_neg hw).trans (if_neg h0)⟩

/-- Jobs that have just entered the loop with the same operands are alike, whatever their unspecified
residual words: the first pass loads a word (log 2). -/
theorem packBegin_alike (w : Nat) (len : Word64) {nbits : BitVec 7} (h0 : nbits ≠ 0) (filt : Bool)
    (n n' : Nat) : (packBegin w len nbits filt n).Alike (packBegin w len nbits filt n') :=
  ⟨rfl, .inr (Nat.pos_of_ne_zero fun h => h0 (BitVec.eq_of_toNat_eq h))⟩

theorem packStart_sameEffect {u : Engine} {s s' : State} (h : s.agreeOn u s') {w : Nat}
    {mk : PackJob w → Job} (hmk : ∀ j j', j.Alike j' → jobsAlike (some (mk j)) (some (mk j')))
    (len : Word64) (nbits : BitVec 7) (filt : Bool) :
    SameEffect u s s' (s.packStart mk len nbits filt) (s'.packStart mk len nbits filt) := by
  obtain ⟨st, hst⟩ | ⟨h0, hrun⟩ := packStart_decided mk len nbits filt
  · rw [hst, hst]
    exact ⟨_, rfl, rfl, by cases u <;> exact h, id⟩
  · rw [hrun, hrun]
    exact ⟨[], (List.append_nil _).symm, (List.append_nil _).symm, by cases u <;> exact h,
      fun _ => hmk _ _ (packBegin_alike w len h0 filt _ _)⟩

/-- Any command has the same effect from two states that agree on its engine: the words it computes, and
hence its response, are read off that engine; a `PACK` is decided by its operands. -/
theorem exec_sameEffect {i : Instr} {s s' : State} (h : s.agreeOn i.engine s') :
    ∃ t t', exec i s = .next t ∧ exec i s' = .next t' ∧ SameEffect i.engine s s' t t' := by
  cases i
  case seiranPack | sfc32Pack | sfc64Pack =>
    exact ⟨_, _, rfl, rfl, packStart_sameEffect h (fun _ _ => id) ..⟩
  all_goals
    obtain ⟨e, e32, e64, job, moves, out, n⟩ := s
    obtain ⟨e', e32', e64', job', moves', out', n'⟩ := s'
    cases h
    exact ⟨_, _, rfl, rfl, _, rfl, rfl, rfl, id⟩

/-- A pass depends on the engine and the job alone, and on no residual word it overwrites unread. -/
theorem packPass_congr {w : Nat} {σ : Type} (next : σ → BitVec w × σ) {e e' : σ} {j j' : PackJob w}
    (he : e = e') (hj : j.Alike j') : packPass next e j = packPass next e' j' := by
  rw [he, packPass_alike next e' hj]

/-- Alike jobs on the same engine, whose words are the same in both states, make the same pass. -/
theorem packStep_congr {s s' : State} : ∀ {j j' : Job}, jobsAlike (some j) (some j') →
    s.agreeOn j.engine s' →
    ∃ o, (s.packStep j).out = s.out ++ o ∧ (s'.packStep j').out = s'.out ++ o ∧
      (s.packStep j).agreeOn j.engine (s'.packStep j') ∧ (s.packStep j).job = (s'.packStep j').job
  | .seiran j, .seiran j', hj, h => by
    have hpass := packPass_congr seiranStep h hj
    exact ⟨_, rfl, by simp [hpass], congrArg Prod.fst hpass, by simp [hpass]⟩
  | .sfc32 j, .sfc32 j', hj, h => by
    have hpass := packPass_congr sfcStep h hj
    exact ⟨_, rfl, by simp [hpass], congrArg Prod.fst hpass, by simp [hpass]⟩
  | .sfc64 j, .sfc64 j', hj, h => by
    have hpass := packPass_congr sfcStep h hj
    exact ⟨_, rfl, by simp [hpass], congrArg Prod.fst hpass, by simp [hpass]⟩

/-- Settles O24: first every command, then every pass of a running `PACK`. -/
theorem commandReadsItsOwnEngineOnly : Obligations.CommandReadsItsOwnEngineOnly := by
  refine ⟨fun i s s' h => ?_, fun j j' s s' hj h => packStep_congr hj h⟩
  obtain ⟨t, t', ht, ht', o, heffect⟩ := exec_sameEffect h
  exact ⟨t, t', o, ht, ht', heffect⟩

/-! ## The parameter words (R22) -/

/-- Settles O22. -/
theorem parametersNeverChange : Obligations.ParametersNeverChange := fun _ _ => step_samePqr

/-! ## What a step of the idle block performs (R17, R49) -/

/-- Settles O8. -/
theorem stepRunsDecodedCommand : Obligations.StepRunsDecodedCommand := fun _ _ _ _ => step_present

/-- A table word stands for a command exactly when its frame decodes to it (log 12). -/
theorem decodeTableWord_eq_some {nbits w : Nat} {i : Instr} :
    decodeTableWord nbits w = some i ↔ decode (tableFrame nbits w) = .ok i := by
  unfold decodeTableWord
  cases decode (tableFrame nbits w) <;> simp [Except.toOption]

/-- Settles O9: a placed word is the frame next presented to a block with no job running. -/
theorem placedFrameRunsNext : Obligations.PlacedFrameRunsNext := fun s nbits w _ h =>
  step_present (s := s.withFetchWord nbits w) rfl rfl (decodeTableWord_eq_some.1 h)

/-! ## The block right after reset (R8, R24) -/

/-- What construction answers: the block of two legal triples, all else as in `State.reset`. -/
theorem construct_eq_some {t32 : Pqr 32} {t64 : Pqr 64} {s : State} :
    construct t32 t64 = some s ↔ (t32.Legal ∧ t64.Legal) ∧
      { State.reset with sfc32 := Sfc.zeroed t32, sfc64 := Sfc.zeroed t64 } = s := by
  rw [construct, Option.ite_none_right_eq_some, Option.some_inj]

/-- `State.reset` is the block with the spec's default triples (log 4). -/
theorem construct_default : construct Config.sfc32Pqr Config.sfc64Pqr = some State.reset :=
  construct_of_legal (by decide)

/-- Settles O16. -/
theorem resetStateValues : Obligations.ResetStateValues := by
  refine ⟨fun t32 t64 s h => ?_, _, _, construct_default⟩
  obtain ⟨-, rfl⟩ := construct_eq_some.1 h
  exact ⟨rfl, rfl, rfl, rfl⟩

/-- A block that can be built has legal shift amounts, no job and no output. -/
theorem construct_inv_streamOk {t32 : Pqr 32} {t64 : Pqr 64} {s : State}
    (h : construct t32 t64 = some s) : s.Inv ∧ s.StreamOk := by
  obtain ⟨⟨h32, h64⟩, rfl⟩ := construct_eq_some.1 h
  exact ⟨⟨h32, h64, rfl⟩, rfl, rfl⟩

/-- Settles O19: the reset state is one of the blocks that can be built. -/
theorem builtBlockMeetsInvariants : Obligations.BuiltBlockMeetsInvariants :=
  ⟨construct_inv_streamOk construct_default, fun _ _ _ => construct_inv_streamOk⟩

end Sys2Proof.Machine

/-! # Memory (20_memory.md): R26 the output stream, R29 the byte order of packed units, R33 and R34 commands
performed one after another -/

namespace Sys2Proof.Machine

/-! ## What a command and a step deliver (R26, R42) -/

/-- A `PACK`, when it is taken, either answers at once or is left running with nothing out (R72). -/
theorem packStart_delivers (s : State) {w : Nat} {mk : PackJob w → Job} (hmk : ∀ j, (mk j).idx = j.idx)
    (len : Word64) (nbits : BitVec 7) (filt : Bool) :
    ((s.packStart mk len nbits filt).job = s.job ∧
      ∃ st d, (s.packStart mk len nbits filt).out = s.out ++ [.response st d]) ∨
    ((s.packStart mk len nbits filt).out = s.out ∧
      ∃ j, (s.packStart mk len nbits filt).job = some j ∧ j.idx = 0) := by
  obtain ⟨-, h⟩ | ⟨-, -, h⟩ | ⟨-, -, -, h⟩ := packStart_cases s mk len nbits filt <;> rw [h]
  · exact .inl ⟨rfl, _, _, rfl⟩
  · exact .inl ⟨rfl, _, _, rfl⟩
  · exact .inr ⟨rfl, _, rfl, hmk _⟩

/-- A command delivers one response and leaves the job alone, unless it is a `PACK` that is left running with
nothing out. -/
theorem exec_delivers {i : Instr} {s t : State} (h : exec i s = .next t) :
    (t.job = s.job ∧ ∃ st d, t.out = s.out ++ [.response st d]) ∨
    (i.isPack = true ∧ t.out = s.out ∧ ∃ j, t.job = some j ∧ j.idx = 0) := by
  obtain ⟨-, -, e, d, rfl⟩ | ⟨-, -, e, d, -, rfl⟩ | ⟨-, -, e, d, -, rfl⟩ | hpack := exec_cases h
  · exact .inl ⟨rfl, _, _, rfl⟩
  · exact .inl ⟨rfl, _, _, rfl⟩
  · exact .inl ⟨rfl, _, _, rfl⟩
  · obtain ⟨_, _, _, rfl, rfl⟩ | ⟨_, _, _, rfl, rfl⟩ | ⟨_, _, _, rfl, rfl⟩ := hpack <;>
      exact (packStart_delivers s (fun _ => rfl) ..).imp_right (.intro rfl)

/-- A command other than `PACK` delivers one response and leaves the job alone. -/
theorem exec_delivers_of_not_pack {i : Instr} {s t : State} (hi : i.isPack = false)
    (h : exec i s = .next t) : t.job = s.job ∧ ∃ st d, t.out = s.out ++ [.response st d] :=
  (exec_delivers h).resolve_right fun ⟨hpack, _⟩ => by simp [hi] at hpack

theorem out_isPrefix_packStep (s : State) (j : Job) : s.out <+: (s.packStep j).out := by
  cases j <;> exact List.prefix_append _ _

theorem out_isPrefix_exec {i : Instr} {s t : State} (h : exec i s = .next t) : s.out <+: t.out := by
  obtain ⟨-, st, d, ho⟩ | ⟨-, ho, -⟩ := exec_delivers h <;> rw [ho]
  exact List.prefix_append _ _

/-- Settles O21: a pass, a refusal and a command append to the stream, a reset and a wait leave it. -/
theorem deliveredOutputStays : Obligations.DeliveredOutputStays := by
  intro s t h
  obtain ⟨ms, rfl⟩ | ⟨j, ms, -, rfl⟩ | ⟨ms, -, rfl⟩ | ⟨f, ms, e, -, -, -, rfl⟩ | ⟨f, ms, i, -, -, -, hx⟩ :=
    step_cases h
  · exact List.prefix_rfl
  · exact out_isPrefix_packStep { s with moves := ms } j
  · exact List.prefix_rfl
  · exact List.prefix_append _ _
  · exact out_isPrefix_exec (s := { s with moves := ms }) hx

/-! ## The lanes of the stream are numbered in order (R26) -/

theorem laneOrder_append (n : Nat) (o o' : List Output) :
    laneOrder n (o ++ o') = (laneOrder n o && laneOrder (laneNext n o) o') := by
  induction o generalizing n with
  | nil => rfl
  | cons x o ih => cases x <;> simp [laneOrder, laneNext, ih, Bool.and_assoc]

theorem laneNext_append (n : Nat) (o o' : List Output) :
    laneNext n (o ++ o') = laneNext (laneNext n o) o' := by
  induction o generalizing n with
  | nil => rfl
  | cons x o ih => cases x <;> exact ih _

/-- `StreamOk` as a proposition about the job, if there is one. -/
theorem State.streamOk_iff {s : State} :
    s.StreamOk ↔ laneOrder 0 s.out = true ∧ ∀ j ∈ s.job, j.idx = 0 ∨ j.idx = laneNext 0 s.out := by
  simp [State.StreamOk, Option.all_eq_true]

/-- A response keeps a stream in order. -/
theorem laneOrder_append_response {o : List Output} (ho : laneOrder 0 o = true) (st : Status) (d : Word64) :
    laneOrder 0 (o ++ [.response st d]) = true := by
  rw [laneOrder_append, ho]; rfl

/-- A pass of a job that stands at 0 or at the number `n` that comes next delivers that lane, a response or
nothing, and leaves a job that stands at 0 or at the number that then comes next. -/
theorem packPass_laneOrder {w : Nat} {σ : Type} (next : σ → BitVec w × σ) (e : σ) {j : PackJob w} {n : Nat}
    (hj : j.idx = 0 ∨ j.idx = n) :
    laneOrder n (packPass next e j).2.1 = true ∧
    ∀ j' ∈ (packPass next e j).2.2, j'.idx = 0 ∨ j'.idx = laneNext n (packPass next e j).2.1 := by
  by_cases h : j.idx < j.len
  · obtain ⟨rand, bits, e', -, ⟨-, heq⟩ | ⟨-, heq⟩⟩ := packPass_cases next e h <;> rw [heq]
    · refine ⟨by simpa [laneOrder] using hj, ?_⟩
      rintro _ ⟨⟩
      exact .inr rfl
    · refine ⟨rfl, ?_⟩
      rintro _ ⟨⟩
      exact hj
  · rw [packPass_done next e h]
    exact ⟨rfl, nofun⟩

/-- `packPass_laneOrder` for the whole stream and the job as a state holds it, on whichever engine. -/
theorem laneOrder_append_packPass {w : Nat} {σ : Type} (next : σ → BitVec w × σ) (e : σ) {j : PackJob w}
    {mk : PackJob w → Job} (hmk : ∀ j, (mk j).idx = j.idx) {o : List Output} (ho : laneOrder 0 o = true)
    (hj : (mk j).idx = 0 ∨ (mk j).idx = laneNext 0 o) :
    laneOrder 0 (o ++ (packPass next e j).2.1) = true ∧
    ∀ j' ∈ (packPass next e j).2.2.map mk,
      j'.idx = 0 ∨ j'.idx = laneNext 0 (o ++ (packPass next e j).2.1) := by
  rw [hmk] at hj
  obtain ⟨hlanes, hjob⟩ := packPass_laneOrder next e hj
  refine ⟨by rw [laneOrder_append, ho, hlanes]; rfl, fun j' hj' => ?_⟩
  obtain ⟨k, hk, rfl⟩ := Option.map_eq_some_iff.1 hj'
  rw [hmk, laneNext_append]
  exact hjob k hk

/-- A pass keeps the stream in order. -/
theorem packStep_streamOk {s : State} {j : Job} (ho : laneOrder 0 s.out = true)
    (hj : j.idx = 0 ∨ j.idx = laneNext 0 s.out) : (s.packStep j).StreamOk := by
  rw [State.streamOk_iff]
  cases j with
  | seiran j => exact laneOrder_append_packPass _ _ (fun _ => rfl) ho hj
  | sfc32 j => exact laneOrder_append_packPass _ _ (fun _ => rfl) ho hj
  | sfc64 j => exact laneOrder_append_packPass _ _ (fun _ => rfl) ho hj

/-- A command that the idle block takes keeps the stream in order: it ends with a response, or is a `PACK` that
starts its lanes at 0. -/
theorem exec_streamOk {i : Instr} {s t : State} (ho : laneOrder 0 s.out = true) (hidle : s.job = none)
    (h : exec i s = .next t) : t.StreamOk := by
  rw [State.streamOk_iff]
  obtain ⟨hjob, st, d, hout⟩ | ⟨-, hout, j, hjob, hidx⟩ := exec_delivers h <;> rw [hout, hjob]
  · rw [hidle]
    exact ⟨laneOrder_append_response ho st d, nofun⟩
  · refine ⟨ho, ?_⟩
    rintro _ ⟨⟩
    exact .inl hidx

/-- Settles O20: a reset leaves the stream and ends the job, a pass goes on with the next lane, a refusal is a
response of the idle block, and a command starts anew. -/
theorem stepKeepsOutputInOrder : Obligations.StepKeepsOutputInOrder := by
  intro s t hs h
  obtain ⟨ho, hjob⟩ := State.streamOk_iff.1 hs
  obtain ⟨ms, rfl⟩ | ⟨j, ms, hj, rfl⟩ | ⟨ms, -, rfl⟩ | ⟨f, ms, e, hidle, -, -, rfl⟩ |
    ⟨f, ms, i, hidle, -, -, hx⟩ := step_cases h
  · exact ⟨ho, rfl⟩
  · exact packStep_streamOk (s := { s with moves := ms }) ho (hjob j hj)
  · exact hs
  · exact State.streamOk_iff.2 ⟨laneOrder_append_response ho _ _, by simp [hidle]⟩
  · exact exec_streamOk (s := { s with moves := ms }) ho hidle hx

/-! ## Runs of the block -/

theorem steps_zero (s : State) : steps 0 s = .next s := rfl

theorem steps_succ {s t : State} (h : step s = .next t) (n : Nat) : steps (n + 1) s = steps n t := by
  have h : core.step s = .next t := h
  simp only [steps, Host.Core.run, h]
  rfl

/-- States from which the next step is the same run alike. -/
theorem steps_succ_congr {s t : State} (h : step s = step t) (n : Nat) :
    steps (n + 1) s = steps (n + 1) t := by
  obtain ⟨u, hu⟩ := step_next t
  rw [steps_succ hu, steps_succ (h.trans hu)]

/-- A run of `m + n` steps is one of `n` from the state after `m`. -/
theorem steps_add {m : Nat} {s t : State} (h : steps m s = .next t) (n : Nat) :
    steps (m + n) s = steps n t := by
  induction m generalizing s with
  | zero =>
    cases h
    rw [Nat.zero_add]
  | succ m ih =>
    obtain ⟨u, hu⟩ := step_next s
    rw [steps_succ hu] at h
    rw [Nat.add_right_comm, steps_succ hu, ih h]

theorem execs_cons {i : Instr} {s t : State} (h : exec i s = .next t) (is : List Instr) :
    execs (i :: is) s = execs is t := by
  rw [execs, h]

/-! ## Frames presented one after another (R34) -/

/-- The frame of a well-formed command decodes to it (R37 to R41, R46). -/
theorem decode_encode {i : Instr} (hi : i.wellFormed = true) : decode (encode i) = .ok i := by
  cases i
  case seiranInit | sfc64Init =>
    simp [decode, encode, Frame.op_ofFields, decodeSeed64_ok, Frame.arg0_ofFields, Frame.arg1_ofFields,
      Frame.arg2_ofFields]
  case sfc32Init | sfc32Init3 | sfc64Init3 =>
    simp [decode, encode, Frame.op_ofFields, decodeSeed32_ok, decodeSeeds32_ok, Frame.arg0_ofFields,
      Frame.arg1_ofFields, Frame.arg2_ofFields, fits32_setWidth]
  case seiranPack | sfc32Pack | sfc64Pack =>
    have hnbits := of_decide_eq_true hi
    simpa [decode, encode, packFrame, Frame.op_ofFields, decodePack_ok, Frame.arg0_ofFields,
      Frame.arg1_ofFields, Frame.arg2_ofFields, packReservedZero_packArg1, packNbits_packArg1,
      packFilt_packArg1, Engine.width] using hnbits
  all_goals rfl

/-- Responding with new engine words takes none of the host's moves and does not depend on them. -/
theorem State.respond_with_moves (s : State) (e : Seiran) (e32 : Sfc 32) (e64 : Sfc 64) (d : Word64)
    (ms : List HostMove) :
    { s with seiran := e, sfc32 := e32, sfc64 := e64, moves := ms }.respond d =
      { { s with seiran := e, sfc32 := e32, sfc64 := e64 }.respond d with moves := ms } := rfl

/-- A command other than `PACK` takes none of the host's moves and does not depend on them. -/
theorem exec_with_moves {i : Instr} {s t : State} (hi : i.isPack = false) (h : exec i s = .next t)
    (ms : List HostMove) : exec i { s with moves := ms } = .next { t with moves := ms } := by
  cases i
  case seiranPack | sfc32Pack | sfc64Pack => cases hi
  all_goals
    obtain rfl := Host.Outcome.next.inj h
    exact congrArg Host.Outcome.next (s.respond_with_moves _ _ _ _ ms)

/-- Settles O13, by induction on the list: the idle block takes the first frame and is idle again after it,
with the other frames still presented. -/
theorem framesRunAsCommandsInOrder : Obligations.FramesRunAsCommandsInOrder := by
  intro is
  induction is with
  | nil =>
    intro s ms _ _ hm
    rw [← show s.moves = ms from hm]
    rfl
  | cons i is ih =>
    intro s ms hidle hall hm
    obtain ⟨⟨hwf, hpack⟩, hrest⟩ := List.forall_mem_cons.1 hall
    obtain ⟨t, ht⟩ := exec_next i { s with moves := is.map (fun i => .present (encode i)) ++ ms }
    obtain ⟨hjob, -⟩ := exec_delivers_of_not_pack hpack ht
    obtain ⟨-, -, -, hmoves⟩ := otherEnginesUntouched.1 _ _ _ ht
    have hstep : step s = .next t := (step_present hidle hm (decode_encode hwf)).trans ht
    rw [List.length_cons, steps_succ hstep, ih t ms (hjob.trans hidle) hrest hmoves,
      execs_cons (exec_with_moves hpack ht ms)]

/-! ## Bytes packed from 32-bit words (R29) -/

/-- The bytes of a number are those of its low part, then those of its high part. -/
theorem leBytes_add_mul {m lo : Nat} (n hi : Nat) (hlo : lo < 256 ^ m) :
    leBytes (m + n) (lo + 256 ^ m * hi) = leBytes m lo ++ leBytes n hi := by
  induction m generalizing lo with
  | zero =>
    obtain rfl : lo = 0 := Nat.lt_one_iff.1 hlo
    simp [leBytes]
  | succ m ih =>
    have hdiv : lo / 256 < 256 ^ m := Nat.div_lt_of_lt_mul (by rwa [← pow_succ'])
    rw [Nat.add_right_comm, leBytes, leBytes, pow_succ', Nat.mul_assoc, Nat.add_mul_mod_self_left,
      Nat.add_mul_div_left _ _ (by decide), ih hdiv, List.cons_append]

/-- The first word drawn holds the low bytes of the pair (R29). -/
theorem leBytes_joinHalves (hi lo : Word32) :
    leBytes 8 (joinHalves hi lo).toNat = leBytes 4 lo.toNat ++ leBytes 4 hi.toNat := by
  rw [← leBytes_add_mul (m := 4) 4 hi.toNat lo.isLt, joinHalves, BitVec.toNat_append,
    ← Nat.shiftLeft_add_eq_or_of_lt lo.isLt, Nat.shiftLeft_eq, Nat.add_comm, Nat.mul_comm]
  rfl

theorem length_leBytes (n v : Nat) : (leBytes n v).length = n := by
  induction n generalizing v with
  | zero => rfl
  | succ n ih => rw [leBytes, List.length_cons, ih]

theorem lanesFrom_append (i : Nat) (vs ws : List Nat) :
    lanesFrom i (vs ++ ws) = lanesFrom i vs ++ lanesFrom (i + vs.length) ws := by
  induction vs generalizing i with
  | nil => rfl
  | cons v vs ih => simp [lanesFrom, ih, Nat.add_right_comm, Nat.add_assoc]

/-- An unfiltered `PACK` of bytes on `SFC32`: `n` whole bytes are left of the word `rand`, unit `i` comes next. -/
def bytesJob (len n : Nat) (rand : Word32) (i : Nat) : PackJob 32 where
  len := len
  nbits := 8
  filt := false
  bits := 8 * n
  rand := rand
  idx := i

/-- `s` with that `PACK` running. -/
def State.packingBytes (s : State) (len n : Nat) (rand : Word32) (i : Nat) : State :=
  { s with job := some (.sfc32 (bytesJob len n rand i)) }

/-- Taking such a `PACK` leaves it running with no byte drawn (R72). -/
theorem exec_packBytes (s : State) {len : Word64} (hlen : len ≠ 0) :
    exec (.sfc32Pack len 8 false) s =
      .next ({ s with freeIx := s.freeIx + 1 }.packingBytes len.toNat 0
        ((Config.freeRand s.freeIx).setWidth 32) 0) := by
  rw [exec_sfc32Pack, State.packStart, if_neg (by decide), if_neg (not_or.2 ⟨by decide, hlen⟩)]
  rfl

section
variable {s : State} (hr : s.noReset = true) {len i : Nat} (rand : Word32)
include hr

theorem step_packingBytes (n : Nat) : step (s.packingBytes len n rand i) =
    .next (s.packStep (.sfc32 (bytesJob len n rand i))) :=
  step_busy (s := s.packingBytes len n rand i) rfl hr

/-- A pass with no byte left draws a word and goes on as if its bytes had been there. -/
theorem step_packingBytes_load (hi : i < len) :
    step (s.packingBytes len 0 rand i) = step (s.callSfc32.2.packingBytes len 4 s.callSfc32.1 i) := by
  have hpass : packPass sfcStep s.sfc32 (bytesJob len 0 rand i) =
      packPass sfcStep s.callSfc32.2.sfc32 (bytesJob len 4 s.callSfc32.1 i) := by
    rw [packPass_of_lt _ _ hi, packPass_of_lt _ _ hi]
    rfl
  rw [step_packingBytes hr, step_packingBytes (s := s.callSfc32.2) hr, State.packStep, State.packStep, hpass]
  rfl

/-- A pass with a byte left delivers it. -/
theorem step_packingBytes_cut (n : Nat) (hi : i < len) :
    step (s.packingBytes len (n + 1) rand i) =
      .next ((s.deliver [.lane i (BitVec.ofNat 64 (rand.toNat % 256))]).packingBytes len n
        (shr rand 8) (i + 1)) := by
  have hpass : packPass sfcStep s.sfc32 (bytesJob len (n + 1) rand i) =
      (s.sfc32, [.lane i (BitVec.ofNat 64 (rand.toNat % 256))],
        some (bytesJob len n (shr rand 8) (i + 1))) := by
    rw [packPass_of_lt _ _ hi]
    have hcand : zext64 (candidate 8 rand) = BitVec.ofNat 64 (rand.toNat % 256) :=
      BitVec.eq_of_toNat_eq (by simp [zext64, candidate])
    simp [packLoad, packCut_eq, bytesJob, Nat.mul_add, accepts, hcand]
  rw [step_packingBytes hr, State.packStep, hpass]
  rfl

/-- As many passes as there are bytes left of a word deliver them, the least significant first. -/
theorem steps_packingBytes_word (n : Nat) (hi : i + n ≤ len) :
    ∃ r, steps n (s.packingBytes len n rand i) =
      .next ((s.deliver (lanesFrom i (leBytes n rand.toNat))).packingBytes len 0 r (i + n)) := by
  induction n generalizing s rand i with
  | zero => exact ⟨rand, by simp [steps_zero, leBytes, lanesFrom, State.deliver]⟩
  | succ n ih =>
    obtain ⟨r, hsteps⟩ := ih (s := s.deliver [.lane i (BitVec.ofNat 64 (rand.toNat % 256))])
      (i := i + 1) hr (shr rand 8) (by omega)
    refine ⟨r, ?_⟩
    rw [steps_succ (step_packingBytes_cut hr rand n (by omega)), hsteps]
    simp [State.deliver, leBytes, lanesFrom, Spec.shr, Nat.add_assoc, Nat.add_comm 1]

/-- From an empty residue, four passes deliver the bytes of a fresh word. -/
theorem steps_packingBytes_fresh (hi : i + 4 ≤ len) :
    ∃ r, steps 4 (s.packingBytes len 0 rand i) =
      .next ((s.callSfc32.2.deliver (lanesFrom i (leBytes 4 s.callSfc32.1.toNat))).packingBytes
        len 0 r (i + 4)) := by
  obtain ⟨r, hsteps⟩ := steps_packingBytes_word (s := s.callSfc32.2) hr s.callSfc32.1 4 hi
  refine ⟨r, ?_⟩
  rw [steps_succ_congr (step_packingBytes_load hr rand (by omega)), hsteps]

/-- The pass after the last byte responds. -/
theorem step_packingBytes_done (n : Nat) :
    step (s.packingBytes len n rand len) =
      .next ({ s with job := none }.respond (BitVec.ofNat 64 len)) := by
  rw [step_packingBytes hr, State.packStep, packPass_done _ _ (lt_irrefl len)]
  rfl

/-- Eight bytes are those of two words, the first one low. -/
theorem steps_packingBytes_eight :
    steps 9 (s.packingBytes 8 0 rand 0) =
      .next ({ s.callSfc32.2.callSfc32.2.deliver (lanesFrom 0 (leBytes 8
        (joinHalves s.callSfc32.2.callSfc32.1 s.callSfc32.1).toNat)) with job := none }.respond 8) := by
  obtain ⟨r, hlo⟩ := steps_packingBytes_fresh hr rand (len := 8) (i := 0) (by decide)
  obtain ⟨r', hhi⟩ := steps_packingBytes_fresh
    (s := s.callSfc32.2.deliver (lanesFrom 0 (leBytes 4 s.callSfc32.1.toNat))) hr r (len := 8) (i := 4)
    (by decide)
  calc steps 9 (s.packingBytes 8 0 rand 0)
    _ = steps 5 _ := steps_add hlo 5
    _ = steps 1 _ := steps_add hhi 1
    _ = steps 0 _ := steps_succ (step_packingBytes_done (by exact hr) r' 0) 0
    _ = _ := by
      rw [steps_zero, leBytes_joinHalves, lanesFrom_append, length_leBytes]
      simp only [State.deliver, ← List.append_assoc]
      rfl
end

/-- Settles O47: the two words drawn are the two halves of the pair, the first one low. -/
theorem packedBytesAreNextU64 : Obligations.PackedBytesAreNextU64 := fun s hr =>
  ⟨_, _, _, _, exec_packBytes s (by decide), steps_packingBytes_eight (by exact hr) _,
    exec_sfc32NextU64 s, rfl, rfl, rfl, rfl⟩

/-! ## Engines seeded alike (R33, R34) -/

/-- The commands `is` deliver the same `n` outputs from `s` and from `s'`. -/
def SameOutputs (is : List Instr) (n : Nat) (s s' : State) : Prop :=
  ∃ t t' o, execs is s = .next t ∧ execs is s' = .next t' ∧ t.out = s.out ++ o ∧ t'.out = s'.out ++ o ∧
    o.length = n

/-- A first command that answers alike comes before commands that do. -/
theorem SameOutputs.cons {i : Instr} {is : List Instr} {n : Nat} {s s' a a' : State} {r : Output}
    (ha : exec i s = .next a) (ha' : exec i s' = .next a') (hr : a.out = s.out ++ [r])
    (hr' : a'.out = s'.out ++ [r]) (h : SameOutputs is n a a') : SameOutputs (i :: is) (n + 1) s s' := by
  obtain ⟨t, t', o, ht, ht', ho, ho', hlen⟩ := h
  refine ⟨t, t', r :: o, (execs_cons ha is).trans ht, (execs_cons ha' is).trans ht', ?_, ?_, by simp [hlen]⟩
  · rw [ho, hr, List.append_assoc, List.singleton_append]
  · rw [ho', hr', List.append_assoc, List.singleton_append]

/-- Any number of one command other than `PACK` delivers the same responses, one each, from two states that agree
on its engine. -/
theorem sameOutputs_replicate {i : Instr} (hi : i.isPack = false) {s s' : State}
    (h : s.agreeOn i.engine s') (k : Nat) : SameOutputs (List.replicate k i) k s s' := by
  induction k generalizing s s' with
  | zero => exact ⟨s, s', [], rfl, rfl, (List.append_nil _).symm, (List.append_nil _).symm, rfl⟩
  | succ k ih =>
    obtain ⟨a, a', ha, ha', o, ho, ho', hagree, -⟩ := exec_sameEffect h
    obtain ⟨-, st, d, hout⟩ := exec_delivers_of_not_pack hi ha
    obtain rfl : o = [.response st d] := List.append_cancel_left (ho.symm.trans hout)
    exact (ih hagree).cons ha ha' ho ho'

/-- Settles O56: a seeding reads nothing but the seeds and, on an SFC engine, the triple. -/
theorem sameSeedSameOutputs : Obligations.SameSeedSameOutputs := by
  intro init nxt k s s' h
  suffices ∃ a a' r, exec init s = .next a ∧ exec init s' = .next a' ∧ a.out = s.out ++ [r] ∧
      a'.out = s'.out ++ [r] ∧ a.agreeOn nxt.engine a' ∧ nxt.isPack = false by
    obtain ⟨a, a', r, ha, ha', hr, hr', hagree, hpack⟩ := this
    exact (sameOutputs_replicate hpack hagree k).cons ha ha' hr hr'
  obtain ⟨⟨seed, rfl⟩, rfl⟩ | ⟨⟨s1, s2, s3, rfl⟩ | ⟨seed, rfl⟩ | rfl, rfl, hpqr⟩ |
    ⟨⟨s1, s2, s3, rfl⟩ | ⟨seed, rfl⟩ | rfl, rfl, hpqr⟩ := h
  · exact ⟨_, _, _, rfl, rfl, rfl, rfl, rfl, rfl⟩
  all_goals exact ⟨_, _, _, rfl, rfl, rfl, rfl, sfcInit3_congr hpqr .., rfl⟩

end Sys2Proof.Machine

/-! # Encoding (30_encoding.md): R43 the status codes, R46 to R49 which frames are performed and which are
refused, R42 the response of a command -/

namespace Sys2Proof.Machine

/-! ## The operand fields on numbers (R40, R41) -/

/-- The upper half of a field is zero exactly when its number has 32 bits (R40). -/
theorem fits32_iff {v : Word64} : fits32 v = true ↔ v.toNat < 2 ^ 32 := by
  simp only [fits32, beq_iff_eq, ← BitVec.toNat_inj, BitVec.extractLsb'_toNat, Nat.shiftRight_eq_div_pow,
    BitVec.ofNat_eq_ofNat, BitVec.toNat_ofNat]
  omega

theorem packNbits_toNat (v : Word64) : (packNbits v).toNat = v.toNat % 2 ^ 7 := by
  simp [packNbits]

/-- Bit 8 of the `arg1` of a `PACK`, as a digit. -/
theorem packFilt_toNat (v : Word64) : (packFilt v).toNat = v.toNat / 2 ^ 8 % 2 := by
  rw [packFilt, BitVec.getLsbD, Nat.toNat_testBit]

/-- The reserved bits of the `arg1` of a `PACK`, as digits of its number (R41). -/
theorem packReservedZero_iff {v : Word64} :
    packReservedZero v = true ↔ v.toNat / 2 ^ 7 % 2 = 0 ∧ v.toNat / 2 ^ 9 = 0 := by
  simp only [packReservedZero, BitVec.getLsbD, Nat.testBit_eq_decide_div_mod_eq, Bool.and_eq_true,
    Bool.not_eq_true', decide_eq_false_iff_not, beq_iff_eq, ← BitVec.toNat_inj, BitVec.extractLsb'_toNat,
    Nat.shiftRight_eq_div_pow, BitVec.ofNat_eq_ofNat, BitVec.toNat_ofNat]
  omega

theorem packArg1_toNat : ∀ (nbits : BitVec 7) (filt : Bool),
    (packArg1 nbits filt).toNat = nbits.toNat + 256 * filt.toNat := by
  decide

/-- An `arg1` with no reserved bit set is made of the two operands it carries (R41). -/
theorem packArg1_of_packReservedZero {v : Word64} (h : packReservedZero v = true) :
    packArg1 (packNbits v) (packFilt v) = v := by
  obtain ⟨h7, h9⟩ := packReservedZero_iff.1 h
  apply BitVec.eq_of_toNat_eq
  rw [packArg1_toNat, packNbits_toNat, packFilt_toNat]
  omega

/-! ## What the decoder answers (R47 to R49) -/

/-- One of the cases (a) to (d) of R48 holds. -/
def IllegalOperands (f : Frame) : Prop :=
  Spec.unusedNotZero f ∨ Spec.seedTooWide f ∨ Spec.packReservedSet f ∨ Spec.nbitsTooWide f

/-- The answers R49 allows to the frame `f`: `BAD_OP` for a reserved opcode, else `BAD_OPERAND` in the cases
of R48, else the one command whose frame it is. -/
inductive Answers (f : Frame) : Except Reject Instr → Prop where
  | reserved (hop : Spec.reservedOp f.op = true) : Answers f (.error .badOp)
  | illegal (hop : Spec.reservedOp f.op = false) (hf : IllegalOperands f) : Answers f (.error .badOperand)
  | command {i : Instr} (hop : Spec.reservedOp f.op = false) (hf : ¬ IllegalOperands f)
      (hwf : i.wellFormed = true) (henc : encode i = f) : Answers f (.ok i)

/-- A guard that holds outside the cases of R48 and makes `f` the frame of `i` answers as R49 says. -/
theorem answers_guard {f : Frame} {i : Instr} {c : Prop} [Decidable c] (hop : Spec.reservedOp f.op = false)
    (hc : IllegalOperands f ↔ ¬ c) (hi : c → i.wellFormed = true ∧ encode i = f) :
    Answers f (if c then .ok i else .error .badOperand) := by
  split
  · obtain ⟨hwf, henc⟩ := hi ‹c›
    exact .command hop (fun hf => hc.1 hf ‹c›) hwf henc
  · exact .illegal hop (hc.2 ‹¬ c›)

/-- A frame is put together from its fields. -/
theorem ofFields_eq {f : Frame} {a2 a1 a0 : Word64} {op : BitVec 8} (h2 : a2 = f.arg2) (h1 : a1 = f.arg1)
    (h0 : a0 = f.arg0) (hop : f.op = op) : Frame.ofFields a2 a1 a0 op = f := by
  rw [h2, h1, h0, ← hop, Frame.ofFields_fields]

section
variable {f : Frame} {op : BitVec 8} (hop : f.op = op)
include hop

/-- The cases of R48 for one opcode. -/
theorem illegalOperands_iff : IllegalOperands f ↔
    ((f.arg0 ≠ 0 ∧ Spec.functOf op ∉ [1, 2, 8]) ∨ (f.arg1 ≠ 0 ∧ Spec.functOf op ∉ [2, 8]) ∨
      (f.arg2 ≠ 0 ∧ Spec.functOf op ≠ 2)) ∨
    (Spec.unitOf op = 1 ∧
      ((Spec.functOf op ∈ [1, 2] ∧ fits32 f.arg0 = false) ∨
        (Spec.functOf op = 2 ∧ (fits32 f.arg1 = false ∨ fits32 f.arg2 = false)))) ∨
    (Spec.functOf op = 8 ∧ packReservedZero f.arg1 = false) ∨
    (Spec.functOf op = 8 ∧ (if Spec.unitOf op = 1 then 32 else 64) ≤ (packNbits f.arg1).toNat) := by
  subst hop
  simp only [IllegalOperands, Spec.unusedNotZero, Spec.seedTooWide, Spec.packReservedSet, Spec.nbitsTooWide,
    ← Bool.not_eq_true, fits32_iff, packReservedZero_iff, packNbits_toNat, not_lt, not_and_or, ← ne_eq,
    Nat.mod_two_ne_zero]

variable (hres : Spec.reservedOp op = false)
include hres

theorem decodeNone_answers {i : Instr} (hfunct : Spec.functOf op ∉ [1, 2, 8])
    (hwf : i.wellFormed = true) (henc : encode i = Frame.ofFields 0 0 0 op) :
    Answers f (decodeNone f i) := by
  have hillegal : IllegalOperands f ↔ f.arg0 ≠ 0 ∨ f.arg1 ≠ 0 ∨ f.arg2 ≠ 0 := by
    simp only [List.mem_cons, not_or] at hfunct
    simp [illegalOperands_iff hop, hfunct]
  exact answers_guard (hop ▸ hres) (by rw [hillegal]; tauto) fun ⟨h0, h1, h2⟩ =>
    ⟨hwf, henc.trans (ofFields_eq h2.symm h1.symm h0.symm hop)⟩

theorem decodeSeed64_answers {mk : Word64 → Instr} (hfunct : Spec.functOf op = 1)
    (hunit : Spec.unitOf op ≠ 1) (hwf : ∀ v, (mk v).wellFormed = true)
    (henc : ∀ v, encode (mk v) = Frame.ofFields 0 0 v op) : Answers f (decodeSeed64 f mk) := by
  have hillegal : IllegalOperands f ↔ f.arg1 ≠ 0 ∨ f.arg2 ≠ 0 := by
    simp [illegalOperands_iff hop, hfunct, hunit]
  exact answers_guard (hop ▸ hres) (by rw [hillegal]; tauto) fun ⟨h1, h2⟩ =>
    ⟨hwf _, (henc _).trans (ofFields_eq h2.symm h1.symm rfl hop)⟩

theorem decodeSeed32_answers {mk : Word32 → Instr} (hfunct : Spec.functOf op = 1)
    (hunit : Spec.unitOf op = 1) (hwf : ∀ v, (mk v).wellFormed = true)
    (henc : ∀ v, encode (mk v) = Frame.ofFields 0 0 (v.setWidth 64) op) :
    Answers f (decodeSeed32 f mk) := by
  have hillegal : IllegalOperands f ↔ (f.arg1 ≠ 0 ∨ f.arg2 ≠ 0) ∨ fits32 f.arg0 = false := by
    simp [illegalOperands_iff hop, hfunct, hunit]
  exact answers_guard (hop ▸ hres) (by rw [hillegal, ← Bool.not_eq_true]; tauto) fun ⟨h0, h1, h2⟩ =>
    ⟨hwf _, (henc _).trans (ofFields_eq h2.symm h1.symm (setWidth_of_fits32 h0) hop)⟩

theorem decodeSeeds32_answers {mk : Word32 → Word32 → Word32 → Instr} (hfunct : Spec.functOf op = 2)
    (hunit : Spec.unitOf op = 1) (hwf : ∀ v1 v2 v3, (mk v1 v2 v3).wellFormed = true)
    (henc : ∀ v1 v2 v3, encode (mk v1 v2 v3) =
      Frame.ofFields (v3.setWidth 64) (v2.setWidth 64) (v1.setWidth 64) op) :
    Answers f (decodeSeeds32 f mk) := by
  have hillegal : IllegalOperands f ↔
      fits32 f.arg0 = false ∨ fits32 f.arg1 = false ∨ fits32 f.arg2 = false := by
    simp [illegalOperands_iff hop, hfunct, hunit]
  exact answers_guard (hop ▸ hres) (by simp only [hillegal, ← Bool.not_eq_true]; tauto) fun ⟨h0, h1, h2⟩ =>
    ⟨hwf .., (henc ..).trans
      (ofFields_eq (setWidth_of_fits32 h2) (setWidth_of_fits32 h1) (setWidth_of_fits32 h0) hop)⟩

theorem decodePack_answers {W : Nat} {mk : Word64 → BitVec 7 → Bool → Instr} (hfunct : Spec.functOf op = 8)
    (hunit : (if Spec.unitOf op = 1 then 32 else 64) = W)
    (hwf : ∀ len nbits filt, (mk len nbits filt).wellFormed = decide (nbits.toNat < W))
    (henc : ∀ len nbits filt, encode (mk len nbits filt) = packFrame op len nbits filt) :
    Answers f (decodePack f W mk) := by
  have hillegal : IllegalOperands f ↔
      f.arg2 ≠ 0 ∨ packReservedZero f.arg1 = false ∨ W ≤ (packNbits f.arg1).toNat := by
    simp [illegalOperands_iff hop, hfunct, hunit]
  exact answers_guard (hop ▸ hres) (by rw [hillegal, ← Bool.not_eq_true, ← not_lt]; tauto)
    fun ⟨h1, h2, hnbits⟩ => ⟨(hwf ..).trans (decide_eq_true hnbits), (henc ..).trans
      (ofFields_eq h2.symm (packArg1_of_packReservedZero h1) rfl hop)⟩

/-- No frame of three 64-bit seeds is illegal (R67). -/
theorem seeds64_answers {mk : Word64 → Word64 → Word64 → Instr} (hfunct : Spec.functOf op = 2)
    (hunit : Spec.unitOf op ≠ 1) (hwf : ∀ v1 v2 v3, (mk v1 v2 v3).wellFormed = true)
    (henc : ∀ v1 v2 v3, encode (mk v1 v2 v3) = Frame.ofFields v3 v2 v1 op) :
    Answers f (.ok (mk f.arg0 f.arg1 f.arg2)) := by
  have hlegal : ¬ IllegalOperands f := by simp [illegalOperands_iff hop, hfunct, hunit]
  exact .command (hop ▸ hres) hlegal (hwf ..) ((henc ..).trans (ofFields_eq rfl rfl rfl hop))
end

/-- The opcodes of the map of R46. -/
def assignedOps : List (BitVec 8) :=
  [0x00, 0x01, 0x04, 0x05, 0x06, 0x08, 0x09, 0x0A, 0x0B, 0x0C, 0x0D,
    0x40, 0x41, 0x42, 0x43, 0x48, 0x49, 0x4A, 0x4B, 0x4C, 0x4D,
    0x80, 0x81, 0x82, 0x83, 0x88, 0x89, 0x8A, 0x8B, 0x8C, 0x8D]

/-- R47 leaves no opcode outside the map. -/
theorem mem_assignedOps : ∀ op, Spec.reservedOp op = false → op ∈ assignedOps := by
  decide

/-- The decoder answers as R49 says, for each form of operands (R39) in turn. -/
theorem decode_answers (f : Frame) : Answers f (decode f) := by
  unfold decode
  split
  case h_2 hop | h_23 hop =>
    exact decodeSeed64_answers hop rfl rfl (by decide) (fun _ => rfl) (fun _ => rfl)
  case h_13 hop => exact decodeSeed32_answers hop rfl rfl rfl (fun _ => rfl) (fun _ => rfl)
  case h_14 hop => exact decodeSeeds32_answers hop rfl rfl rfl (fun _ _ _ => rfl) (fun _ _ _ => rfl)
  case h_24 hop => exact seeds64_answers hop rfl rfl (by decide) (fun _ _ _ => rfl) (fun _ _ _ => rfl)
  case h_6 hop | h_16 hop | h_26 hop =>
    exact decodePack_answers hop rfl rfl rfl (fun _ _ _ => rfl) (fun _ _ _ => rfl)
  case h_32 =>
    refine .reserved (by_contra fun hres => ?_)
    have hmem := mem_assignedOps _ (Bool.eq_false_iff.2 hres)
    simp_all [assignedOps]
  all_goals exact decodeNone_answers ‹_› rfl (by decide) rfl rfl

/-! ## The two directions of the round trip -/

/-- Settles O2. -/
theorem decodeEncodeRoundTrip : Obligations.DecodeEncodeRoundTrip := fun _ => decode_encode

/-- Settles O3: an answer that is a command is one whose frame was given. -/
theorem acceptedFrameIsItsEncoding : Obligations.AcceptedFrameIsItsEncoding := by
  intro f i h
  have hf : Answers f (.ok i) := h ▸ decode_answers f
  cases hf with
  | command _ _ hwf henc => exact ⟨hwf, henc⟩

/-- Settles O1: the frames are those of the eight commands. -/
theorem knownFramesDecode : Obligations.KnownFramesDecode :=
  ⟨decode_encode (i := .seiranInit 401) rfl, decode_encode (i := .seiranPack 12 7 true) rfl,
    decode_encode (i := .seiranJump96) rfl, decode_encode (i := .sfc32Pack 5 8 false) rfl,
    decode_encode (i := .sfc32NextU64) rfl, decode_encode (i := .sfc32Init3 1 2 3) rfl,
    decode_encode (i := .sfc64Init3 0xDB2CD7E7B0F478BE 0xABF4641A2C71BA49 0x20C6ED6D9D7B8D41) rfl,
    decode_encode (i := .sfc64Pack 5 0 true) rfl⟩

/-! ## Refused frames (R47, R48, R97) -/

theorem Answers.eq_badOp_iff {f : Frame} {r : Except Reject Instr} (h : Answers f r) :
    r = .error .badOp ↔ Spec.reservedOp f.op = true := by
  cases h with
  | reserved hop => simp [hop]
  | illegal hop _ => simp [hop]
  | command hop _ _ _ => simp [hop]

/-- A step of an idle block that is presented a frame it refuses answers the status and nothing else. -/
theorem step_refused {s : State} {f : Frame} {ms : List HostMove} {e : Reject} (hj : s.job = none)
    (hm : s.moves = .present f :: ms) (hd : decode f = .error e) :
    step s = .next ({ s with moves := ms }.refuse e.status) := by
  unfold step State.turn
  simp [hm, hj, State.takeFrame, hd]

/-- Settles O4: the decoder answers `badOp` to reserved opcodes only, and the idle block passes it on. -/
theorem reservedOpcodesAreBadOp : Obligations.ReservedOpcodesAreBadOp :=
  ⟨fun f => (decode_answers f).eq_badOp_iff, rfl,
    fun _ f _ hidle hm hres => step_refused hidle hm ((decode_answers f).eq_badOp_iff.2 hres)⟩

/-- Settles O5: with the opcode assigned, only the last two answers of R49 are left. -/
theorem illegalOperandsAreBadOperand : Obligations.IllegalOperandsAreBadOperand := by
  intro f hres
  change (decode f = _ ↔ IllegalOperands f) ∧ _
  have hf := decode_answers f
  generalize decode f = r at hf ⊢
  cases hf with
  | reserved hop => simp [hres] at hop
  | illegal _ hill => exact ⟨iff_of_true rfl hill, .inl rfl⟩
  | command _ hill _ _ => exact ⟨iff_of_false nofun hill, .inr ⟨_, rfl⟩⟩

/-! ## The response of a command (R42) -/

/-- A `PACK` is answered when it is taken, or is then running with nothing out (R72). -/
theorem packStart_responds (s : State) {w : Nat} (mk : PackJob w → Job) (len : Word64) (nbits : BitVec 7)
    (filt : Bool) :
    ((s.packStart mk len nbits filt).job = s.job ∧
      ((s.packStart mk len nbits filt).out = s.out ++ [.response .ok 0] ∨
        decide (nbits.toNat < w) = false ∧
          (s.packStart mk len nbits filt).out = s.out ++ [.response .badOperand 0])) ∨
    ((s.packStart mk len nbits filt).job.isSome = true ∧ (s.packStart mk len nbits filt).out = s.out) := by
  obtain ⟨hw, h⟩ | ⟨-, -, h⟩ | ⟨-, -, -, h⟩ := packStart_cases s mk len nbits filt <;> rw [h]
  · exact .inl ⟨rfl, .inr ⟨decide_eq_false (not_lt.2 hw), rfl⟩⟩
  · exact .inl ⟨rfl, .inl rfl⟩
  · exact .inr ⟨rfl, rfl⟩

/-- Settles O25: a command other than `PACK` responds itself, a `PACK` as `packStart_responds` says. -/
theorem oneResponsePerCommand : Obligations.OneResponsePerCommand := by
  intro i s t h
  cases hi : i.isPack
  · refine ⟨fun _ => ?_, nofun⟩
    obtain ⟨-, -, e, d, rfl⟩ | ⟨-, -, e, d, -, rfl⟩ | ⟨-, -, e, d, -, rfl⟩ | hpack := exec_cases h
    · exact ⟨rfl, d, rfl⟩
    · exact ⟨rfl, d, rfl⟩
    · exact ⟨rfl, d, rfl⟩
    · obtain ⟨_, _, _, rfl, -⟩ | ⟨_, _, _, rfl, -⟩ | ⟨_, _, _, rfl, -⟩ := hpack <;> cases hi
  · refine ⟨nofun, fun _ => ?_⟩
    cases i
    case seiranPack | sfc32Pack | sfc64Pack =>
      obtain rfl := Host.Outcome.next.inj h
      exact packStart_responds ..
    all_goals cases hi

/-! ## A non-zero status (R43) -/

/-- A well-formed command answers no status but `OK`. -/
theorem exec_status {i : Instr} {s t : State} (hwf : i.wellFormed = true) (h : exec i s = .next t)
    {o : List Output} (ho : t.out = s.out ++ o) {st : Status} {d : Word64} (hmem : .response st d ∈ o) :
    st = .ok := by
  have hout : (∃ d, t.out = s.out ++ [.response .ok d]) ∨ t.out = s.out := by
    obtain ⟨hcommand, hpack⟩ := oneResponsePerCommand i s t h
    cases hi : i.isPack
    · exact .inl (hcommand hi).2
    · obtain ⟨-, hout | ⟨hill, -⟩⟩ | ⟨-, hout⟩ := hpack hi
      · exact .inl ⟨0, hout⟩
      · simp [hwf] at hill
      · exact .inr hout
  obtain ⟨d', hout⟩ | hout := hout
  · obtain rfl : o = [.response .ok d'] := List.append_cancel_left (ho.symm.trans hout)
    cases hmem with
    | head => rfl
    | tail _ hmem => cases hmem
  · obtain rfl : o = [] := by simpa [hout] using ho
    cases hmem

/-- A pass of a `PACK` answers no status but `OK`. -/
theorem packPass_status {w : Nat} {σ : Type} (next : σ → BitVec w × σ) (e : σ) {j : PackJob w} {st : Status}
    {d : Word64} (hmem : .response st d ∈ (packPass next e j).2.1) : st = .ok := by
  by_cases h : j.idx < j.len
  · obtain ⟨rand, bits, e', -, ⟨-, heq⟩ | ⟨-, heq⟩⟩ := packPass_cases next e h <;> simp [heq] at hmem
  · obtain ⟨rfl, -⟩ : st = .ok ∧ d = BitVec.ofNat 64 j.idx := by simpa [packPass_done next e h] using hmem
    rfl

theorem packStep_status {s : State} {j : Job} {o : List Output} (ho : (s.packStep j).out = s.out ++ o)
    {st : Status} {d : Word64} (hmem : .response st d ∈ o) : st = .ok := by
  cases j with
  | _ j =>
    obtain rfl := List.append_cancel_left ho
    exact packPass_status _ _ hmem

/-- A status other than `OK` is the answer to a frame that is refused (R97). -/
theorem step_status {s t : State} (h : step s = .next t) {o : List Output} (ho : t.out = s.out ++ o)
    {st : Status} {d : Word64} (hmem : .response st d ∈ o) :
    st = .ok ∨ ∃ ms, t = { s with moves := ms }.refuse st := by
  obtain ⟨ms, rfl⟩ | ⟨j, ms, -, rfl⟩ | ⟨ms, -, rfl⟩ | ⟨f, ms, e, -, -, -, rfl⟩ | ⟨f, ms, i, -, -, hd, hx⟩ :=
    step_cases h
  · simp_all
  · exact .inl (packStep_status (s := { s with moves := ms }) ho hmem)
  · simp_all
  · obtain rfl := List.append_cancel_left ho
    obtain ⟨rfl, -⟩ : st = e.status ∧ d = 0 := by simpa using hmem
    exact .inr ⟨ms, rfl⟩
  · exact .inl (exec_status (s := { s with moves := ms }) (acceptedFrameIsItsEncoding f i hd).1 hx ho hmem)

/-- Settles O7: a non-zero status is not `OK`, so it comes from a refusal, which delivers it and writes no
engine. -/
theorem nonzeroStatusMeansNothingChanged : Obligations.NonzeroStatusMeansNothingChanged := by
  refine ⟨rfl, rfl, rfl, by rintro (_ | _ | _) <;> decide, fun s t o st d h ho hmem hst => ?_⟩
  obtain rfl | ⟨ms, rfl⟩ := step_status h ho hmem
  · exact absurd rfl hst
  · exact ⟨(List.append_cancel_left ho).symm, rfl, rfl, rfl⟩

end Sys2Proof.Machine

/-! # Seiran128 (41_seiran128.md): R52 the step, R53 to R58 the commands, R59 what the step and the jumps do to
the state -/

namespace Sys2Proof.Machine

/-! ## The step on numbers (R52) -/

/-- Settles O27: each primitive of the step is the spec's on numbers. -/
theorem seiranStepMatchesSpec : Obligations.SeiranStepMatchesSpec := by
  intro e
  simp [Spec.seiranStep, Spec.add, Spec.mul, rotl_toNat, seiranRotOut, seiranRotB, seiranShlB, seiranMul]

/-! ## `NEXT` and `INIT` (R53, R54) -/

/-- Settles O30: opcode 0x00 has its own line in the decoder, and `exec` is the step by definition. -/
theorem seiranNextResult : Obligations.SeiranNextResult :=
  ⟨⟨rfl, fun f h => by rw [decode, h]; rfl⟩, fun _ => rfl⟩

/-- One multiply-add of the seeding, on numbers (R53). -/
theorem mul_C1_add_C2_toNat (x : Word64) :
    (x * C1 + C2).toNat = (x.toNat * 6364136223846793005 + 1442695040888963407) % 2 ^ 64 := by
  rw [BitVec.toNat_add, BitVec.toNat_mul, Nat.mod_add_mod]
  rfl

/-- No seed gives the all-zero state: from `a = 0` the second multiply-add gives `C2` (R53). -/
theorem seiranInit_ne_zero (seed : Word64) : seiranInit seed ≠ { a := 0, b := 0 } := by
  intro h
  obtain ⟨ha, hb⟩ := Seiran.mk.inj h
  rw [ha] at hb
  exact absurd hb (by decide)

/-- Settles O29: two multiply-adds, the second from the new `a`. -/
theorem seiranInitResult : Obligations.SeiranInitResult :=
  ⟨⟨fun _ => rfl, fun f h => by rw [decode, h]; rfl⟩, fun seed s =>
    ⟨(seiranInit seed).a, (seiranInit seed).b, rfl, mul_C1_add_C2_toNat _, mul_C1_add_C2_toNat _,
      fun ⟨ha, hb⟩ => seiranInit_ne_zero seed (congrArg₂ Seiran.mk ha hb)⟩⟩

/-! ## The state part of the step is linear over GF(2) (R59 item 1) -/

theorem rotl_xor {w : Nat} (x y : BitVec w) {k : Nat} (hk : k < w) :
    rotl (x ^^^ y) k = rotl x k ^^^ rotl y k := by
  simp only [rotl_eq_rotateLeft _ hk]
  ext i hi
  simp only [BitVec.getElem_rotateLeft, BitVec.getElem_xor]
  split <;> rfl

theorem shl_xor {w : Nat} (x y : BitVec w) (k : Nat) : shl (x ^^^ y) k = shl x k ^^^ shl y k :=
  BitVec.shiftLeft_xor_distrib x y k

theorem Seiran.xor_assoc (x y z : Seiran) : (x.xor y).xor z = x.xor (y.xor z) := by
  simp only [Seiran.xor, BitVec.xor_assoc]

theorem Seiran.xor_comm (x y : Seiran) : x.xor y = y.xor x := by
  simp only [Seiran.xor, BitVec.xor_comm]

theorem Seiran.xor_xor_xor_comm (x y z u : Seiran) :
    (x.xor y).xor (z.xor u) = (x.xor z).xor (y.xor u) := by
  rw [xor_assoc, xor_assoc, ← xor_assoc y, xor_comm y, xor_assoc z]

/-- The all-zero state. -/
def Seiran.zero : Seiran := { a := 0, b := 0 }

@[simp] theorem Seiran.xor_zero (x : Seiran) : x.xor .zero = x := by
  simp [Seiran.xor, Seiran.zero]

@[simp] theorem Seiran.zero_xor (x : Seiran) : Seiran.xor .zero x = x := by
  simp [Seiran.xor, Seiran.zero]

@[simp] theorem Seiran.xor_self (x : Seiran) : x.xor x = .zero := by
  simp [Seiran.xor, Seiran.zero]

/-- A map of Seiran states that is linear over GF(2). -/
abbrev SeiranLinear (f : Seiran → Seiran) : Prop := Function.Semiconj₂ f Seiran.xor Seiran.xor

theorem seiranT_linear : SeiranLinear seiranT := by
  intro x y
  simp only [Seiran.xor, seiranT, seiranStep, Seiran.mk.injEq]
  rw [rotl_xor _ _ (by decide), shl_xor]
  constructor <;> ac_rfl

/-- Settles O49: the rotate and the shift distribute over exclusive or. -/
theorem seiranStateStepIsLinear : Obligations.SeiranStateStepIsLinear := seiranT_linear

@[simp] theorem seiranT_zero : seiranT .zero = .zero := by decide

theorem stepsOf_seiranStep (n : Nat) (e : Seiran) : stepsOf seiranStep n e = seiranT^[n] e := by
  induction n generalizing e with
  | zero => rfl
  | succ n ih => exact ih _

/-! ## Polynomials in the step (R55, R59 item 4) -/

/-- A state, or the all-zero one. -/
def Seiran.scale (c : Bool) (e : Seiran) : Seiran := if c then e else .zero

@[simp] theorem Seiran.scale_false (e : Seiran) : e.scale false = .zero := rfl

@[simp] theorem Seiran.scale_true (e : Seiran) : e.scale true = e := rfl

theorem Seiran.scale_linear (c : Bool) : SeiranLinear (Seiran.scale c) := by
  intro x y
  cases c <;> simp

theorem Seiran.scale_bxor (c d : Bool) (e : Seiran) : e.scale (c ^^ d) = (e.scale c).xor (e.scale d) := by
  cases c <;> cases d <;> simp

theorem seiranT_scale (c : Bool) (e : Seiran) : seiranT (e.scale c) = (seiranT e).scale c := by
  cases c <;> simp

/-- `P(T) e`, where `P` is the polynomial over GF(2) with the first `n` of the coefficients `c`. -/
def polySum (c : Nat → Bool) : Nat → Seiran → Seiran
  | 0, _ => .zero
  | n + 1, e => (polySum c n e).xor ((seiranT^[n] e).scale (c n))

theorem polySum_succ (c : Nat → Bool) (n : Nat) (e : Seiran) :
    polySum c (n + 1) e = (polySum c n e).xor ((seiranT^[n] e).scale (c n)) := rfl

theorem polySum_linear (c : Nat → Bool) (n : Nat) : SeiranLinear (polySum c n) := by
  intro x y
  induction n with
  | zero => exact (Seiran.xor_zero _).symm
  | succ n ih =>
    rw [polySum_succ, ih, seiranT_linear.iterate n, Seiran.scale_linear, Seiran.xor_xor_xor_comm]
    rfl

theorem polySum_bxor (c d : Nat → Bool) (n : Nat) (e : Seiran) :
    polySum (fun i => c i ^^ d i) n e = (polySum c n e).xor (polySum d n e) := by
  induction n with
  | zero => exact (Seiran.xor_zero _).symm
  | succ n ih => simp only [polySum_succ, ih, Seiran.scale_bxor, Seiran.xor_xor_xor_comm]

theorem polySum_congr {c d : Nat → Bool} {n : Nat} (h : ∀ i < n, c i = d i) (e : Seiran) :
    polySum c n e = polySum d n e := by
  induction n with
  | zero => rfl
  | succ n ih => rw [polySum_succ, polySum_succ, ih fun i hi => h i (by omega), h n (by omega)]

@[simp] theorem polySum_false (n : Nat) (e : Seiran) : polySum (fun _ => false) n e = .zero := by
  induction n with
  | zero => rfl
  | succ n ih => simp [polySum_succ, ih]

/-- `P(T)` commutes with `T`. -/
theorem seiranT_polySum (c : Nat → Bool) (n : Nat) (e : Seiran) :
    seiranT (polySum c n e) = polySum c n (seiranT e) := by
  induction n with
  | zero => exact seiranT_zero
  | succ n ih =>
    rw [polySum_succ, polySum_succ, seiranT_linear, ih, seiranT_scale, ← Function.iterate_succ_apply' seiranT,
      Function.iterate_succ_apply]

/-- The lowest coefficient split off: `P(T) = c 0 + P'(T) T`. -/
theorem polySum_succ' (c : Nat → Bool) (n : Nat) (e : Seiran) :
    polySum c (n + 1) e = (e.scale (c 0)).xor (polySum (fun i => c (i + 1)) n (seiranT e)) := by
  induction n with
  | zero => simp [polySum]
  | succ n ih => rw [polySum_succ, ih, polySum_succ, Seiran.xor_assoc, Function.iterate_succ_apply]

/-- The loop of R55 adds `P(T) e` to its accumulators, where `P` has the polynomial's bits from `i` on. -/
theorem seiranJumpLoop_eq (lo hi : Word64) (n i : Nat) (t e : Seiran) :
    seiranJumpLoop lo hi n i t e = t.xor (polySum (fun k => polyBit lo hi (i + k)) n e) := by
  induction n generalizing i t e with
  | zero => simp [seiranJumpLoop, polySum]
  | succ n ih =>
    have hacc : (if polyBit lo hi i then { a := t.a ^^^ e.a, b := t.b ^^^ e.b } else t) =
        t.xor (e.scale (polyBit lo hi i)) := by
      cases polyBit lo hi i
      · simp
      · rfl
    rw [seiranJumpLoop, hacc, ih, polySum_succ', Seiran.xor_assoc]
    simp only [Nat.add_zero, Nat.add_assoc, Nat.add_comm 1]
    rfl

/-- `P(T) e` for a jump polynomial, bit `i` of which is the coefficient of `x^i` (R59 item 4). -/
def polyAct {w : Nat} (p : BitVec w) (e : Seiran) : Seiran := polySum p.getLsbD w e

/-- The two words of a jump polynomial in one (R30). -/
theorem polyBit_eq (lo hi : Word64) {i : Nat} (h : i < 128) : polyBit lo hi i = (hi ++ lo).getLsbD i := by
  rw [BitVec.getLsbD_append, polyBit]
  split
  · rw [Nat.mod_eq_of_lt ‹_›]
  · rw [Nat.mod_eq_sub_mod (by omega), Nat.mod_eq_of_lt (by omega)]

/-- A jump computes `P(T)` (R59 item 4). -/
theorem seiranJump_eq (lo hi : Word64) (e : Seiran) : seiranJump lo hi e = polyAct (hi ++ lo) e := by
  refine (seiranJumpLoop_eq ..).trans ((Seiran.zero_xor _).trans ?_)
  exact polySum_congr (fun i hi => by rw [Nat.zero_add, polyBit_eq _ _ hi]) e

theorem foldl_filter_range (c : Nat → Bool) (n : Nat) (e : Seiran) :
    ((List.range n).filter c).foldl (fun t k => t.xor (stepsOf seiranStep k e)) .zero = polySum c n e := by
  induction n with
  | zero => rfl
  | succ n ih =>
    rw [List.range_succ, List.filter_append, List.foldl_append, ih, polySum_succ, ← stepsOf_seiranStep]
    cases h : c n <;> simp [h]

/-- `p` is the polynomial of the jump command `i` (R56 to R58). -/
def IsJumpPoly (i : Instr) (p : BitVec 128) : Prop :=
  i = .seiranJump32 ∧ p = jump32Hi ++ jump32Lo ∨ i = .seiranJump64 ∧ p = jump64Hi ++ jump64Lo ∨
    i = .seiranJump96 ∧ p = jump96Hi ++ jump96Lo

theorem exec_of_isJumpPoly {i : Instr} {p : BitVec 128} (h : IsJumpPoly i p) (s : State) :
    exec i s = .next ({ s with seiran := polyAct p s.seiran }.respond 0) := by
  obtain ⟨rfl, rfl⟩ | ⟨rfl, rfl⟩ | ⟨rfl, rfl⟩ := h
  · rw [exec_seiranJump32, seiranJump_eq]
  · rw [exec_seiranJump64, seiranJump_eq]
  · rw [exec_seiranJump96, seiranJump_eq]

/-- Settles O31: the loop of each jump computes `P(T)`, and so does the fold over the set bits. -/
theorem seiranJumpResults : Obligations.SeiranJumpResults := by
  refine ⟨⟨rfl, fun f h => by rw [decode, h]; rfl⟩, ⟨rfl, fun f h => by rw [decode, h]; rfl⟩,
    ⟨rfl, fun f h => by rw [decode, h]; rfl⟩, fun i poly s h => ?_⟩
  rw [exec_of_isJumpPoly h, polyAct, ← foldl_filter_range]
  rfl

/-- `P(T)` commutes with `T`. -/
theorem seiranT_polyAct {w : Nat} (p : BitVec w) (e : Seiran) : seiranT (polyAct p e) = polyAct p (seiranT e) :=
  seiranT_polySum _ _ e

theorem polyAct_linear {w : Nat} (p : BitVec w) : SeiranLinear (polyAct p) := polySum_linear _ _

theorem polyAct_xor {w : Nat} (p q : BitVec w) (e : Seiran) :
    polyAct (p ^^^ q) e = (polyAct p e).xor (polyAct q e) :=
  (polySum_congr (fun _ _ => BitVec.getLsbD_xor) e).trans (polySum_bxor ..)

@[simp] theorem polyAct_zero {w : Nat} (e : Seiran) : polyAct 0#w e = .zero :=
  (polySum_congr (fun _ _ => BitVec.getLsbD_zero) e).trans (polySum_false _ e)

/-- Shifted left by one, a polynomial acts as the step after it, but for the coefficient shifted out. -/
theorem seiranT_polyAct_shiftLeft {w : Nat} (p : BitVec w) (e : Seiran) :
    seiranT (polyAct p e) = (polyAct (p <<< 1) e).xor ((seiranT^[w] e).scale (p.getLsbD (w - 1))) := by
  cases w with
  | zero => simp [polyAct, polySum]
  | succ n =>
    have hshift : polyAct (p <<< 1) e = polySum (fun i => !decide (i < 1) && p.getLsbD (i - 1)) (n + 1) e :=
      polySum_congr (fun i hi => by rw [BitVec.getLsbD_shiftLeft, decide_eq_true hi, Bool.true_and]) e
    have htop : polySum (fun i => !decide (i < 1) && p.getLsbD (i - 1)) (n + 2) e =
        seiranT (polyAct p e) := by
      rw [polySum_succ', seiranT_polyAct]
      simp [polyAct]
    rw [hshift, ← htop, polySum_succ _ (n + 1)]
    simp

theorem polyAct_one (e : Seiran) : polyAct 1#128 e = e := by
  rw [polyAct, polySum_succ']
  simp

/-- Settles O51: a jump is a polynomial in the step, so the step commutes with it. -/
theorem jumpCommutesWithNext : Obligations.JumpCommutesWithNext := by
  intro i s t u hi ht hu
  obtain ⟨p, hp⟩ : ∃ p, IsJumpPoly i p := by
    simp only [List.mem_cons, List.not_mem_nil, or_false] at hi
    obtain rfl | rfl | rfl := hi
    · exact ⟨_, .inl ⟨rfl, rfl⟩⟩
    · exact ⟨_, .inr (.inl ⟨rfl, rfl⟩)⟩
    · exact ⟨_, .inr (.inr ⟨rfl, rfl⟩)⟩
  have hexec := exec_of_isJumpPoly hp
  rw [execs_cons (hexec s), execs_cons (exec_seiranNext _)] at ht
  rw [execs_cons (exec_seiranNext s), execs_cons (hexec _)] at hu
  cases ht
  cases hu
  exact seiranT_polyAct p s.seiran

/-! ## The characteristic polynomial of the step (R59 items 2 and 3) -/

/-- The characteristic polynomial of `T` without its term `x^128`, computed outside Lean. All that is used of it
is that it annihilates `T` (`polyAct_seiranChar`). -/
def seiranChar : BitVec 128 := 0x000505243524371712032010A0F06501

/-- A bit vector is the sum of its bits: what holds of the powers of two and is kept by exclusive or holds of
all. -/
theorem bitVec_xor_induction {w : Nat} {P : BitVec w → Prop} (hzero : P 0#w)
    (hxor : ∀ x y, P x → P y → P (x ^^^ y)) (hbit : ∀ i < w, P (BitVec.twoPow w i))
    (x : BitVec w) : P x := by
  have hlow : ∀ n ≤ w, P ((x.setWidth n).setWidth w) := by
    intro n hn
    induction n with
    | zero =>
      have h : (x.setWidth 0).setWidth w = 0#w := by ext i hi; simp
      rwa [h]
    | succ n ih =>
      have hbelow := ih (by omega)
      have hsplit : (x.setWidth (n + 1)).setWidth w =
          (x.setWidth n).setWidth w ^^^ (if x.getLsbD n then BitVec.twoPow w n else 0#w) := by
        ext i hi
        rcases lt_trichotomy i n with h | rfl | h
        · cases x.getLsbD n <;> simp [h, h.ne, Nat.lt_succ_of_lt h]
        · cases hx : x.getLsbD i <;> simp_all
        · cases x.getLsbD n <;> simp [h.ne', h.not_gt, show ¬i < n + 1 by omega]
      rw [hsplit]
      refine hxor _ _ hbelow ?_
      split
      · exact hbit n (by omega)
      · exact hzero
  simpa using hlow w le_rfl

/-- The states `(2^i, 0)` and their successors span all states, since `T (x, 0) = (x, x)`. -/
theorem seiran_span {P : Seiran → Prop} (hT : ∀ e, P e → P (seiranT e))
    (hxor : ∀ e f, P e → P f → P (e.xor f)) (hbit : ∀ i : Fin 64, P { a := BitVec.twoPow 64 i, b := 0 })
    (e : Seiran) : P e := by
  have hfst : ∀ x : Word64, P { a := x, b := 0 } := by
    refine bitVec_xor_induction ?_ (fun x y => by simpa [Seiran.xor] using hxor ⟨x, 0⟩ ⟨y, 0⟩)
      fun i hi => hbit ⟨i, hi⟩
    simpa [Seiran.xor] using hxor _ _ (hbit 0) (hbit 0)
  have hsum : e = Seiran.xor { a := e.a ^^^ e.b, b := 0 } (seiranT { a := e.b, b := 0 }) := by
    have hb : seiranT { a := e.b, b := 0 } = { a := e.b, b := e.b } := by
      simp [seiranT, seiranStep, rotl, shl, shr]
    rw [hb]
    simp [Seiran.xor]
  rw [hsum]
  exact hxor _ _ (hfst _) (hT _ (hfst _))

/-- On each state `(2^i, 0)` the polynomial of `T` gives the state after 128 steps, by evaluation in the
kernel. -/
theorem seiranChar_annihilates_bit : ∀ i : Fin 64,
    seiranJump (seiranChar.setWidth 64) (seiranChar.extractLsb' 64 64) { a := BitVec.twoPow 64 i, b := 0 } =
      stepsOf seiranStep 128 { a := BitVec.twoPow 64 i, b := 0 } := by
  decide +kernel

/-- `T` is annihilated by its polynomial: `T^128` is the sum of the lower powers (Cayley and Hamilton). -/
theorem polyAct_seiranChar (e : Seiran) : polyAct seiranChar e = seiranT^[128] e := by
  have hwords : seiranChar.extractLsb' 64 64 ++ seiranChar.setWidth 64 = seiranChar := by decide
  induction e using seiran_span with
  | hT e h =>
    rw [← seiranT_polyAct, h, ← Function.iterate_succ_apply' seiranT, Function.iterate_succ_apply]
  | hxor e f he hf => rw [polyAct_linear, he, hf, seiranT_linear.iterate 128]
  | hbit i => rw [← hwords, ← seiranJump_eq, seiranChar_annihilates_bit, stepsOf_seiranStep]

/-! ## Multiplication of polynomials modulo the characteristic polynomial -/

/-- `x q` modulo the characteristic polynomial. -/
def polyMulX (q : BitVec 128) : BitVec 128 := q <<< 1 ^^^ (if q.getLsbD 127 then seiranChar else 0#128)

/-- `x q` acts as the step after `q`. -/
theorem polyAct_mulX (q : BitVec 128) (e : Seiran) : polyAct (polyMulX q) e = seiranT (polyAct q e) := by
  rw [polyMulX, polyAct_xor, seiranT_polyAct_shiftLeft, ← polyAct_seiranChar]
  cases q.getLsbD 127 <;> simp

/-- The product of the `n` coefficients of `p` from number `i` on with `q`. -/
def polyMulFrom (p : BitVec 128) : Nat → Nat → BitVec 128 → BitVec 128
  | 0, _, _ => 0
  | n + 1, i, q => (if p.getLsbD i then q else 0#128) ^^^ polyMulFrom p n (i + 1) (polyMulX q)

theorem polyAct_mulFrom (p : BitVec 128) (n i : Nat) (q : BitVec 128) (e : Seiran) :
    polyAct (polyMulFrom p n i q) e = polySum (fun k => p.getLsbD (i + k)) n (polyAct q e) := by
  induction n generalizing i q with
  | zero => exact polyAct_zero e
  | succ n ih =>
    rw [polyMulFrom, polyAct_xor, ih, polyAct_mulX, polySum_succ']
    simp only [Nat.add_zero, Nat.add_assoc, Nat.add_comm 1]
    cases p.getLsbD i <;> simp

/-- The square of a polynomial. -/
def polySquare (p : BitVec 128) : BitVec 128 := polyMulFrom p 128 0 p

theorem polyAct_square (p : BitVec 128) (e : Seiran) : polyAct (polySquare p) e = polyAct p (polyAct p e) := by
  rw [polySquare, polyAct_mulFrom]
  simp only [Nat.zero_add]
  rfl

/-- Squaring the polynomial doubles the number of steps. -/
theorem polyAct_square_iterate {p : BitVec 128} {m : Nat} (h : ∀ e, polyAct p e = seiranT^[m] e) (n : Nat) :
    ∀ e, polyAct (polySquare^[n] p) e = seiranT^[2 ^ n * m] e := by
  induction n with
  | zero => simpa using h
  | succ n ih =>
    intro e
    rw [Function.iterate_succ_apply', polyAct_square, ih, ih, ← Function.iterate_add_apply, pow_succ]
    congr 2
    ring

/-! ## The jumps (R56 to R58, R59 item 3) -/

theorem polySquare_iterate_X : polySquare^[32] 2#128 = jump32Hi ++ jump32Lo := by decide +kernel

theorem polySquare_iterate_jump32 : polySquare^[32] (jump32Hi ++ jump32Lo) = jump64Hi ++ jump64Lo := by
  decide +kernel

theorem polySquare_iterate_jump64 : polySquare^[32] (jump64Hi ++ jump64Lo) = jump96Hi ++ jump96Lo := by
  decide +kernel

theorem polyAct_X (e : Seiran) : polyAct 2#128 e = seiranT e := by
  have h : polyMulX 1#128 = 2#128 := by decide
  rw [← h, polyAct_mulX, polyAct_one]

theorem seiranJump_jump32 (e : Seiran) : seiranJump jump32Lo jump32Hi e = seiranT^[2 ^ 32] e := by
  rw [seiranJump_eq, ← polySquare_iterate_X]
  exact polyAct_square_iterate (m := 1) polyAct_X 32 e

theorem seiranJump_jump64 (e : Seiran) : seiranJump jump64Lo jump64Hi e = seiranT^[2 ^ 64] e := by
  have h32 (e : Seiran) := (seiranJump_eq ..).symm.trans (seiranJump_jump32 e)
  rw [seiranJump_eq, ← polySquare_iterate_jump32, polyAct_square_iterate h32, ← pow_add]

theorem seiranJump_jump96 (e : Seiran) : seiranJump jump96Lo jump96Hi e = seiranT^[2 ^ 96] e := by
  have h64 (e : Seiran) := (seiranJump_eq ..).symm.trans (seiranJump_jump64 e)
  rw [seiranJump_eq, ← polySquare_iterate_jump64, polyAct_square_iterate h64, ← pow_add]

/-- Settles O52: each jump polynomial is `x` squared often enough modulo the characteristic polynomial. -/
theorem jumpsEqualManySteps : Obligations.JumpsEqualManySteps := by
  intro e
  simp only [stepsOf_seiranStep]
  exact ⟨seiranJump_jump32 e, seiranJump_jump64 e, seiranJump_jump96 e⟩

/-! ## The step is a bijection (R59 items 2 and 6) -/

/-- The inverse of `x` modulo the characteristic polynomial, whose constant term is 1. -/
def polyInvX : BitVec 128 := 0x800282921A921B8B8901900850783280

theorem seiranT_polyInvX (e : Seiran) : seiranT (polyAct polyInvX e) = e := by
  have h : polyMulX polyInvX = 1#128 := by decide
  rw [← polyAct_mulX, h, polyAct_one]

theorem seiranT_bijective : Function.Bijective seiranT :=
  Function.bijective_iff_has_inverse.2
    ⟨polyAct polyInvX, fun e => (seiranT_polyAct _ e).symm.trans (seiranT_polyInvX e), seiranT_polyInvX⟩

theorem rotl_seiranRotB_eq_zero {x : Word64} (h : rotl x seiranRotB = 0#64) : x = 0#64 := by
  have hnat : x.toNat * 2 ^ 29 % 2 ^ 64 + x.toNat / 2 ^ 35 = 0 :=
    (rotl_toNat x (k := 29) (by decide)).symm.trans (congrArg BitVec.toNat h)
  obtain ⟨hlow, hhigh⟩ := Nat.add_eq_zero_iff.1 hnat
  exact BitVec.eq_of_toNat_eq (show x.toNat = 0 by omega)

/-- Settles O50: a step that changes neither word has `rotl b = 0`, so `b = 0`, and then `a = b << 9 = 0`. -/
theorem seiranStateStepIsBijective : Obligations.SeiranStateStepIsBijective := by
  refine ⟨seiranT_bijective, fun e => ⟨fun h => ?_, ?_⟩⟩
  · obtain ⟨ha, hb⟩ : e.a ^^^ rotl e.b seiranRotB = e.a ∧ e.a ^^^ shl e.b seiranShlB = e.b :=
      ⟨congrArg Seiran.a h, congrArg Seiran.b h⟩
    have hb0 : e.b = 0#64 :=
      rotl_seiranRotB_eq_zero ((BitVec.xor_right_inj e.a).1 (ha.trans BitVec.xor_zero.symm))
    have ha0 : e.a = 0#64 := by simpa [hb0, shl] using hb
    exact congrArg₂ Seiran.mk ha0 hb0
  · rintro rfl
    exact seiranT_zero

/-! ## No command leads to the all-zero state (R59 item 2) -/

/-- Every command but `INIT` moves the Seiran engine on by some number of steps. -/
theorem exec_seiran_iterate {i : Instr} {s t : State} (h : exec i s = .next t) :
    (∃ n, t.seiran = seiranT^[n] s.seiran) ∨ ∃ seed, t.seiran = seiranInit seed := by
  have ht {u : State} (hu : exec i s = .next u) : t.seiran = u.seiran := by
    rw [Host.Outcome.next.inj (h.symm.trans hu)]
  obtain ⟨hother, -⟩ := otherEnginesUntouched.1 i s t h
  cases i
  case seiranInit seed => exact .inr ⟨seed, by rw [ht (exec_seiranInit seed s), State.respond_seiran]⟩
  case seiranJump32 =>
    exact .inl ⟨_, by rw [ht (exec_seiranJump32 s), State.respond_seiran, seiranJump_jump32]⟩
  case seiranJump64 =>
    exact .inl ⟨_, by rw [ht (exec_seiranJump64 s), State.respond_seiran, seiranJump_jump64]⟩
  case seiranJump96 =>
    exact .inl ⟨_, by rw [ht (exec_seiranJump96 s), State.respond_seiran, seiranJump_jump96]⟩
  case seiranPack => exact .inl ⟨0, (ht rfl).trans (packStart_frame ..).1⟩
  case seiranNext | seiranNextBool | seiranNextU8 | seiranNextU16 | seiranNextU32 | seiranNextU64 =>
    exact .inl ⟨1, ht rfl⟩
  all_goals exact .inl ⟨0, hother nofun⟩

theorem seiranT_iterate_ne_zero {e : Seiran} (h : e ≠ .zero) (n : Nat) : seiranT^[n] e ≠ .zero := by
  rw [← Function.iterate_fixed seiranT_zero n]
  exact (seiranT_bijective.1.iterate n).ne h

/-- Settles O54: the steps are injective and keep the all-zero state, and no seed gives it. -/
theorem nonzeroSeiranStaysNonzero : Obligations.NonzeroSeiranStaysNonzero := by
  refine ⟨fun i s t h hs => ?_, fun s j hs => ?_⟩
  · obtain ⟨n, ht⟩ | ⟨seed, ht⟩ := exec_seiran_iterate h <;> rw [ht]
    · exact seiranT_iterate_ne_zero hs n
    · exact seiranInit_ne_zero seed
  · cases j with
    | seiran j =>
      rw [State.packStep_seiran_seiran]
      obtain h | h := packPass_engine seiranStep s.seiran j <;> rw [h]
      · exact hs
      · exact seiranT_iterate_ne_zero hs 1
    | sfc32 j => exact hs
    | sfc64 j => exact hs

end Sys2Proof.Machine

/-! # SFC32 and SFC64 (42_sfc.md): R60 the step, R61 the seeding procedure, R62 to R69 the commands, R70 the
counter word -/

namespace Sys2Proof.Machine

/-! ## The step on numbers (R60) -/

/-- Settles O28: each primitive of the step is the spec's on numbers; of these only the rotate needs its amount to
be legal. -/
theorem sfcStepMatchesSpec : Obligations.SfcStepMatchesSpec := by
  intro W e ⟨hp, _, _⟩
  have hrotl := rotl_toNat e.c hp
  refine ⟨?_, sfcStep_pqr e⟩
  simp [Spec.sfcStep, Spec.add, hrotl]

/-! ## `NEXT` (R62, R66) -/

theorem zext64_eq_ofNat {n : Nat} (v : BitVec n) : zext64 v = BitVec.ofNat 64 v.toNat :=
  (BitVec.ofNat_toNat 64 v).symm

theorem zext64_word64 (v : Word64) : zext64 v = v :=
  BitVec.setWidth_eq v

/-- Settles O33: opcode 0x40 has its own line in the decoder, and `exec` is the step, its word zero-extended. -/
theorem sfc32NextResult : Obligations.Sfc32NextResult := by
  refine ⟨⟨rfl, fun f h => by rw [decode, h]; rfl⟩, fun s => ?_⟩
  rw [exec_sfc32Next, State.drawSfc32, zext64_eq_ofNat]
  rfl

/-- Settles O34: opcode 0x80 has its own line in the decoder, and `exec` is the step. -/
theorem sfc64NextResult : Obligations.Sfc64NextResult := by
  refine ⟨⟨rfl, fun f h => by rw [decode, h]; rfl⟩, fun s => ?_⟩
  rw [exec_sfc64Next, State.drawSfc64, zext64_word64]
  rfl

/-! ## Seeding (R61, R63 to R65, R67 to R69) -/

theorem sfcWarmup_eq_stepsOf {w : Nat} (n : Nat) (e : Sfc w) : sfcWarmup n e = stepsOf sfcStep n e := by
  induction n generalizing e with
  | zero => rfl
  | succ n ih => exact ih _

theorem sfcInit3_eq_stepsOf {w : Nat} (e : Sfc w) (s1 s2 s3 : BitVec w) :
    sfcInit3 e s1 s2 s3 = stepsOf sfcStep 12 { e with a := s1, b := s2, c := s3, d := 1 } :=
  sfcWarmup_eq_stepsOf _ _

/-- The counter word starts at 1 and the twelve discarded steps add one each. -/
theorem sfcInit3_d {w : Nat} (e : Sfc w) (s1 s2 s3 : BitVec w) : (sfcInit3 e s1 s2 s3).d = 13 :=
  (sfcWarmup_d 12 _).trans (BitVec.ofNat_add 1 12).symm

theorem oneSeed32_sfc32Init : Spec.OneSeed32 0x41 .sfc32Init := by
  refine ⟨fun seed => ?_, fun f h => ?_⟩
  · rw [BitVec.ofNat_toNat]
    rfl
  · simp only [← fits32_iff, BitVec.ofNat_toNat]
    rw [decode, h]
    rfl

theorem threeSeeds32_sfc32Init3 : Spec.ThreeSeeds32 0x42 .sfc32Init3 := by
  refine ⟨fun s1 s2 s3 => ?_, fun f h => ?_⟩
  · simp only [BitVec.ofNat_toNat]
    rfl
  · simp only [← fits32_iff, BitVec.ofNat_toNat]
    rw [decode, h]
    rfl

/-- Settles O35: `INIT` and `INIT_PRE` are `INIT3` with one seed three times, by definition. -/
theorem sfc32SeedingResults : Obligations.Sfc32SeedingResults := by
  refine ⟨threeSeeds32_sfc32Init3, oneSeed32_sfc32Init, ⟨rfl, fun f h => by rw [decode, h]; rfl⟩, ?_⟩
  intro i s1 s2 s3 s hi
  refine ⟨sfcInit3 s.sfc32 s1 s2 s3, sfcInit3_eq_stepsOf .., sfcInit3_d .., ?_⟩
  obtain rfl | ⟨rfl, rfl, rfl⟩ | ⟨rfl, rfl, rfl, rfl⟩ := hi
  · exact exec_sfc32Init3 ..
  · exact exec_sfc32Init ..
  · rw [exec_sfc32InitPre, sfc32DefaultSeed]
    rfl

/-- Settles O36: `INIT` and `INIT_PRE` are `INIT3` with one seed three times, by definition. -/
theorem sfc64SeedingResults : Obligations.Sfc64SeedingResults := by
  refine ⟨⟨fun _ _ _ => rfl, fun f h => by rw [decode, h]; rfl⟩,
    ⟨fun _ => rfl, fun f h => by rw [decode, h]; rfl⟩, ⟨rfl, fun f h => by rw [decode, h]; rfl⟩, ?_⟩
  intro i s1 s2 s3 s hi
  refine ⟨sfcInit3 s.sfc64 s1 s2 s3, sfcInit3_eq_stepsOf .., sfcInit3_d .., ?_⟩
  obtain rfl | ⟨rfl, rfl, rfl⟩ | ⟨rfl, rfl, rfl, rfl⟩ := hi
  · exact exec_sfc64Init3 ..
  · exact exec_sfc64Init ..
  · rw [exec_sfc64InitPre, sfc64DefaultSeed]
    rfl

/-! ## The counter word (R70 item 1) -/

section
variable {w : Nat} {get : State → Sfc w} {init nxt : Instr}

/-- A command that makes one step of an SFC engine, performed `k` times, makes `k` steps. -/
theorem execs_replicate_warmup (hnxt : ∀ s, ∃ t, exec nxt s = .next t ∧ get t = (sfcStep (get s)).2)
    (k : Nat) (s : State) :
    ∃ t, execs (List.replicate k nxt) s = .next t ∧ get t = sfcWarmup k (get s) := by
  induction k generalizing s with
  | zero => exact ⟨s, rfl, rfl⟩
  | succ k ih =>
    obtain ⟨t, ht, hstep⟩ := hnxt s
    obtain ⟨u, hu, hwarmup⟩ := ih t
    exact ⟨u, (execs_cons ht _).trans hu, hwarmup.trans (by rw [hstep, sfcWarmup])⟩

/-- After a seeding, which leaves 13 in the counter word, each step adds one to it modulo `2^W`. -/
theorem counter_after_seeding {s t : State} (hinit : exec init s = .next t) (hd : (get t).d = 13)
    (hnxt : ∀ s, ∃ t, exec nxt s = .next t ∧ get t = (sfcStep (get s)).2) (k : Nat) :
    ∃ u, execs (init :: List.replicate k nxt) s = .next u ∧ (get u).d.toNat = (13 + k) % 2 ^ w := by
  obtain ⟨u, hu, hwarmup⟩ := execs_replicate_warmup hnxt k t
  refine ⟨u, (execs_cons hinit _).trans hu, ?_⟩
  rw [hwarmup, sfcWarmup_d, hd, ← BitVec.toNat_ofNat, BitVec.ofNat_add]
  rfl
end

/-- Settles O55. -/
theorem sfcCounterCountsSteps : Obligations.SfcCounterCountsSteps := fun s k =>
  ⟨fun s1 s2 s3 => counter_after_seeding (get := State.sfc32) (exec_sfc32Init3 s1 s2 s3 s) (sfcInit3_d ..)
      (fun s => ⟨_, exec_sfc32Next s, rfl⟩) k,
    fun s1 s2 s3 => counter_after_seeding (get := State.sfc64) (exec_sfc64Init3 s1 s2 s3 s) (sfcInit3_d ..)
      (fun s => ⟨_, exec_sfc64Next s, rfl⟩) k⟩

end Sys2Proof.Machine

/-! # BitPacker (43_bitpacker.md): R71 to R75 the `PACK` commands, R76 the printable filter, R77 what a `PACK`
delivers, R78 when it ends, R79 the residue -/

namespace Sys2Proof.Machine

/-! ## Taking a `PACK` (R72 to R75) -/

/-- The frames and refusals of a `PACK`, from its line in the encoder and in the decoder (R41, R48). -/
theorem packOperands_of {op : BitVec 8} {W : Nat} {ins : Word64 → BitVec 7 → Bool → Instr}
    (henc : ∀ len nbits filt, encode (ins len nbits filt) = packFrame op len nbits filt)
    (hdec : ∀ f : Frame, f.op = op → decode f = decodePack f W ins) : Spec.PackOperands op W ins := by
  refine ⟨fun len nbits filt => ?_, fun f hf => ?_⟩
  · rw [henc, packFrame, ← packArg1_toNat, BitVec.ofNat_toNat, BitVec.setWidth_eq]
  · have hnbits : packNbits f.arg1 = BitVec.ofNat 7 f.arg1.toNat :=
      BitVec.eq_of_toNat_eq (by rw [packNbits_toNat, BitVec.toNat_ofNat])
    have hfilt : packFilt f.arg1 = decide (f.arg1.toNat / 2 ^ 8 % 2 = 1) := by
      rw [← packFilt_toNat]
      cases packFilt f.arg1 <;> rfl
    rw [hdec f hf, decodePack, packNbits_toNat, hnbits, hfilt]
    simp only [packReservedZero_iff, and_assoc]

/-- The running `PACK` of an engine. -/
def Job.on : (u : Engine) → PackJob u.width → Job
  | .seiran => .seiran
  | .sfc32 => .sfc32
  | .sfc64 => .sfc64

theorem exec_pack (u : Engine) (len : Word64) (nbits : BitVec 7) (filt : Bool) (s : State) :
    exec (.pack u len nbits filt) s = .next (s.packStart (Job.on u) len nbits filt) := by
  cases u <;> rfl

theorem packStart_of_le (s : State) {w : Nat} (mk : PackJob w → Job) (len : Word64) {nbits : BitVec 7}
    (filt : Bool) (h : w ≤ nbits.toNat) : s.packStart mk len nbits filt = s.refuse .badOperand :=
  if_pos h

theorem packStart_of_empty (s : State) {w : Nat} (mk : PackJob w → Job) {len : Word64} {nbits : BitVec 7}
    (filt : Bool) (hw : nbits.toNat < w) (h : nbits = 0 ∨ len = 0) :
    s.packStart mk len nbits filt = s.respond 0 :=
  (if_neg hw.not_ge).trans (if_pos h)

theorem packStart_of_ne_zero (s : State) {w : Nat} (mk : PackJob w → Job) {len : Word64} {nbits : BitVec 7}
    (filt : Bool) (hw : nbits.toNat < w) (hnbits : nbits ≠ 0) (hlen : len ≠ 0) :
    s.packStart mk len nbits filt =
      { s with job := some (mk (packBegin w len nbits filt s.freeIx)), freeIx := s.freeIx + 1 } :=
  (if_neg hw.not_ge).trans (if_neg (not_or.2 ⟨hnbits, hlen⟩))

/-- Settles O40: the three opcodes have a line each in the decoder, and the operands decide the rest. -/
theorem packEdgeCases : Obligations.PackEdgeCases := by
  refine ⟨packOperands_of (fun _ _ _ => rfl) fun f h => by rw [decode, h]; rfl,
    packOperands_of (fun _ _ _ => rfl) fun f h => by rw [decode, h]; rfl,
    packOperands_of (fun _ _ _ => rfl) fun f h => by rw [decode, h]; rfl,
    fun u len nbits filt s => ⟨fun h => ?_, fun hw h => ?_⟩⟩
  · rw [exec_pack, packStart_of_le s _ len filt h]
    rfl
  · rw [exec_pack, packStart_of_empty s _ filt hw h]
    rfl

/-- Settles O41: the job is the one the loop is entered with, on the engine the command names. -/
theorem packBeginsItsLoop : Obligations.PackBeginsItsLoop := by
  intro u len nbits filt s hw hnbits hlen
  have hok := packBegin_ok (len := len) hw hnbits filt s.freeIx
  refine ⟨_, (exec_pack ..).trans (congrArg _ (packStart_of_ne_zero s _ filt hw hnbits hlen)), ?_⟩
  cases u
  all_goals
    refine ⟨decide_eq_true hok, rfl, ?_, ?_, ?_⟩ <;> rintro k ⟨⟩
    exact ⟨rfl, rfl, rfl, rfl, rfl⟩

/-! ## The printable filter (R76) -/

theorem accepts_true_iff {cand : Nat} : accepts true cand = true ↔ 0x20 ≤ cand ∧ cand ≤ 0x7E := by
  have hbounds : accepts true cand = true ↔ printableLo ≤ cand ∧ cand ≤ printableHi := by
    simp [accepts, printable]
  exact hbounds

theorem accepts_false (cand : Nat) : accepts false cand = true := rfl

/-- A value of at most 64 bits is delivered as it is (R44). -/
theorem zext64_toNat {n : Nat} (v : BitVec n) (hn : n ≤ 64) : (zext64 v).toNat = v.toNat :=
  BitVec.toNat_setWidth_of_le hn

/-- Settles O44: the one lane a pass can deliver is an accepted candidate, and no candidate is wider than a lane. -/
theorem filteredLanesArePrintable : Obligations.FilteredLanesArePrintable := by
  refine ⟨fun _ => accepts_true_iff, accepts_false, by decide, fun w σ next e j i v hw hnbits hfilt hmem => ?_⟩
  by_cases h : j.idx < j.len
  · obtain ⟨rand, bits, e', -, ⟨hacc, heq⟩ | ⟨-, heq⟩⟩ := packPass_cases next e h
    · simp only [heq, List.mem_singleton, Output.lane.injEq] at hmem
      rw [hmem.2, zext64_toNat _ (hnbits.trans hw)]
      rwa [hfilt, accepts_true_iff] at hacc
    · simp [heq] at hmem
  · simp [packPass_done next e h] at hmem

/-! ## Words and candidates (R32, R77) -/

section
variable {w : Nat} {σ : Type} (next : σ → BitVec w × σ) (e : σ)

theorem stepsOf_succ (n : Nat) : stepsOf next (n + 1) e = (next (stepsOf next n e)).2 := by
  induction n generalizing e with
  | zero => rfl
  | succ n ih => exact ih _

theorem candOf_lt (nbits n : Nat) : candOf next e nbits n < 2 ^ nbits :=
  Nat.mod_lt _ (Nat.two_pow_pos nbits)

/-- Candidate number `n` is accepted or not; those before it stay as they are. -/
theorem acceptedOf_succ (nbits : Nat) (filt : Bool) (n : Nat) :
    acceptedOf next e nbits filt (n + 1) = acceptedOf next e nbits filt n ++
      if accepts filt (candOf next e nbits n) then [candOf next e nbits n] else [] := by
  simp [acceptedOf, List.range_succ, List.filter_singleton]

theorem length_acceptedOf_succ (nbits : Nat) (filt : Bool) (n : Nat) :
    (acceptedOf next e nbits filt (n + 1)).length =
      if accepts filt (candOf next e nbits n) then (acceptedOf next e nbits filt n).length + 1
      else (acceptedOf next e nbits filt n).length := by
  rw [acceptedOf_succ, List.length_append]
  split <;> rfl

theorem length_acceptedOf_mono (nbits : Nat) (filt : Bool) :
    Monotone fun n => (acceptedOf next e nbits filt n).length :=
  monotone_nat_of_le_succ fun n => by simp [acceptedOf_succ]

theorem acceptedOf_false (nbits n : Nat) :
    acceptedOf next e nbits false n = (List.range n).map (candOf next e nbits) :=
  List.filter_eq_self.2 fun _ _ => accepts_false _

/-- A filter that refuses every candidate accepts none. -/
theorem acceptedOf_eq_nil {nbits : Nat} {filt : Bool}
    (h : ∀ n, accepts filt (candOf next e nbits n) = false) (n : Nat) :
    acceptedOf next e nbits filt n = [] := by
  simp [acceptedOf, h]

/-- The lane of candidate number `n`, if it is accepted, follows those of the accepted ones before it. -/
theorem lanesFrom_acceptedOf_succ (nbits : Nat) (filt : Bool) (n : Nat) :
    lanesFrom 0 (acceptedOf next e nbits filt (n + 1)) =
      lanesFrom 0 (acceptedOf next e nbits filt n) ++
        if accepts filt (candOf next e nbits n) then
          [.lane (acceptedOf next e nbits filt n).length (BitVec.ofNat 64 (candOf next e nbits n))] else [] := by
  rw [acceptedOf_succ, lanesFrom_append, Nat.zero_add]
  split <;> rfl
end

/-- Candidate number `n` comes from word number `floor(n / k)`. -/
theorem wordsFor_succ {w nbits : Nat} (hk : 0 < w / nbits) (n : Nat) :
    wordsFor w nbits (n + 1) = n / (w / nbits) + 1 := by
  rw [wordsFor, ← Nat.add_div_right n hk]
  congr 1
  omega

theorem wordsFor_zero {w nbits : Nat} (hk : 0 < w / nbits) : wordsFor w nbits 0 = 0 :=
  Nat.div_eq_of_lt (by omega)

/-- The successor of a last remainder. -/
theorem mod_add_one_of_dvd {n k : Nat} (h : k ∣ n + 1) : n % k + 1 = k := by
  have hn := Nat.div_add_mod n k
  have hsucc := Nat.div_mul_cancel h
  rw [Nat.succ_div_of_dvd h, Nat.add_one_mul, Nat.mul_comm] at hsucc
  omega

/-- The successor of any other remainder. -/
theorem add_one_mod_of_not_dvd {n k : Nat} (h : ¬ k ∣ n + 1) : (n + 1) % k = n % k + 1 := by
  have hn := Nat.div_add_mod n k
  have hsucc := Nat.div_add_mod (n + 1) k
  rw [Nat.succ_div_of_not_dvd h] at hsucc
  omega

/-! ## One pass of the loop (R71) -/

section
variable {w : Nat} {σ : Type} (next : σ → BitVec w × σ) (e : σ) (j : PackJob w)

/-- The job `j`, entered with the engine at `e`, after `n` passes of its loop: the residue is what the cuts left of
the word that holds candidate number `n - 1`. -/
def PackJob.after : Nat → PackJob w
  | 0 => j
  | n + 1 =>
    { j with
      bits := w - (n % (w / j.nbits) + 1) * j.nbits
      rand := shr (wordOf next e (n / (w / j.nbits))) ((n % (w / j.nbits) + 1) * j.nbits)
      idx := (acceptedOf next e j.nbits j.filt (n + 1)).length }

/-- Candidate number `n` at the low end of the residual word. -/
def PackJob.atCandidate (n : Nat) : PackJob w :=
  { j with
    bits := w - n % (w / j.nbits) * j.nbits
    rand := shr (wordOf next e (n / (w / j.nbits))) (n % (w / j.nbits) * j.nbits)
    idx := (acceptedOf next e j.nbits j.filt n).length }

variable {j}

theorem PackJob.idx_after (h0 : j.idx = 0) (n : Nat) :
    (j.after next e n).idx = (acceptedOf next e j.nbits j.filt n).length := by
  cases n with
  | zero => exact h0
  | succ n => rfl

theorem PackJob.len_after (n : Nat) : (j.after next e n).len = j.len := by
  cases n <;> rfl

theorem packLoad_of_lt (h : j.bits < j.nbits) :
    packLoad next e j = ((next e).2, { j with rand := (next e).1, bits := w }) :=
  if_pos h

theorem packLoad_of_le (h : j.nbits ≤ j.bits) : packLoad next e j = (e, j) :=
  if_neg h.not_gt

/-- The first candidate of a word is loaded with it, which replaces any residue. -/
theorem packLoad_of_dvd {n : Nat} {j' : PackJob w} (hk : 0 < w / j.nbits) (hn : w / j.nbits ∣ n)
    (hb : j'.bits < j.nbits)
    (hj' : j' = { j with
      bits := j'.bits, rand := j'.rand, idx := (acceptedOf next e j.nbits j.filt n).length }) :
    packLoad next (stepsOf next (wordsFor w j.nbits n) e) j' =
      (stepsOf next (wordsFor w j.nbits (n + 1)) e, j.atCandidate next e n) := by
  have hwords : wordsFor w j.nbits n = n / (w / j.nbits) := by
    rw [wordsFor, Nat.add_div_of_dvd_right hn, Nat.div_eq_of_lt (Nat.sub_one_lt hk.ne'), Nat.add_zero]
  rw [hj', packLoad_of_lt _ _ hb, wordsFor_succ hk, stepsOf_succ, hwords]
  simp [PackJob.atCandidate, Nat.mod_eq_zero_of_dvd hn, wordOf, shr]

/-- The first test of the loop body brings candidate number `n` to the low end: the first of a word is loaded
with it, any other is there after the cut before it. -/
theorem packLoad_after (h0 : j.idx = 0) (hb : j.bits < j.nbits) (hw : j.nbits ≤ w) (n : Nat) :
    packLoad next (stepsOf next (wordsFor w j.nbits n) e) (j.after next e n) =
      (stepsOf next (wordsFor w j.nbits (n + 1)) e, j.atCandidate next e n) := by
  have hk : 0 < w / j.nbits := Nat.div_pos hw (by omega)
  cases n with
  | zero => exact packLoad_of_dvd next e hk (dvd_zero _) hb (by cases j; cases h0; rfl)
  | succ n =>
    by_cases hn : w / j.nbits ∣ n + 1
    · refine packLoad_of_dvd next e hk hn ?_ rfl
      rw [PackJob.after, mod_add_one_of_dvd hn, ← Nat.mod_eq_sub_div_mul]
      exact Nat.mod_lt w (Nat.zero_lt_of_lt hb)
    · have hmod := add_one_mod_of_not_dvd hn
      have hle : j.nbits ≤ w - (n % (w / j.nbits) + 1) * j.nbits := by
        have hlt : (n + 1) % (w / j.nbits) + 1 ≤ w / j.nbits := Nat.mod_lt _ hk
        have := (Nat.mul_le_mul_right j.nbits hlt).trans (Nat.div_mul_le_self w j.nbits)
        rw [hmod, Nat.add_one_mul] at this
        omega
      rw [packLoad_of_le _ _ hle, wordsFor_succ hk, wordsFor_succ hk, Nat.succ_div_of_not_dvd hn]
      simp [PackJob.after, PackJob.atCandidate, Nat.succ_div_of_not_dvd hn, hmod]

theorem shr_shr (x : BitVec w) (m n : Nat) : shr (shr x m) n = shr x (m + n) :=
  (BitVec.shiftRight_add x m n).symm

/-- The rest of the loop body cuts candidate number `n` and leaves what comes after it (R71, R76). -/
theorem packCut_atCandidate (n : Nat) :
    packCut (j.atCandidate next e n) =
      (if accepts j.filt (candOf next e j.nbits n) then
          [.lane (acceptedOf next e j.nbits j.filt n).length (BitVec.ofNat 64 (candOf next e j.nbits n))] else [],
        j.after next e (n + 1)) := by
  have hcand : (candidate j.nbits (j.atCandidate next e n).rand).toNat = candOf next e j.nbits n := by
    simp [candidate, PackJob.atCandidate, candOf, Spec.shr]
  rw [packCut_eq, zext64_eq_ofNat, show (j.atCandidate next e n).nbits = j.nbits from rfl, hcand]
  simp only [PackJob.after, PackJob.atCandidate, length_acceptedOf_succ, shr_shr, Nat.add_one_mul, Nat.sub_sub]
  rfl

/-- Pass number `n` of the loop draws the word of candidate number `n`, if that is its first, and delivers the
candidate, if it is accepted (R71, R77). -/
theorem packPass_after (h0 : j.idx = 0) (hb : j.bits < j.nbits) (hw : j.nbits ≤ w) {n : Nat}
    (hn : (acceptedOf next e j.nbits j.filt n).length < j.len) :
    packPass next (stepsOf next (wordsFor w j.nbits n) e) (j.after next e n) =
      (stepsOf next (wordsFor w j.nbits (n + 1)) e,
        if accepts j.filt (candOf next e j.nbits n) then
          [.lane (acceptedOf next e j.nbits j.filt n).length (BitVec.ofNat 64 (candOf next e j.nbits n))] else [],
        some (j.after next e (n + 1))) := by
  have hidx : (j.after next e n).idx < (j.after next e n).len := by
    rwa [PackJob.idx_after next e h0, PackJob.len_after]
  rw [packPass_of_lt _ _ hidx, packLoad_after next e h0 hb hw, packCut_atCandidate]

/-- The pass after the one that delivers the last unit responds (R71). -/
theorem packPass_after_done (h0 : j.idx = 0) {n : Nat}
    (hn : (acceptedOf next e j.nbits j.filt n).length = j.len) (e' : σ) :
    packPass next e' (j.after next e n) = (e', [.response .ok (BitVec.ofNat 64 j.len)], none) := by
  have hidx : (j.after next e n).idx = j.len := (PackJob.idx_after next e h0 n).trans hn
  rw [packPass_done _ _ (by rw [hidx, PackJob.len_after]; exact lt_irrefl _), hidx]
end

/-! ## A running `PACK` left to itself -/

theorem advance_of_job {s : State} {j : Job} (h : s.job = some j) : s.advance = s.packStep j := by
  rw [State.advance, h]

/-- How an engine takes part in `PACK`: `next` is its step, `get` reads its words and `put` writes them, `mk` makes
its job and `ins` is its command (R21, R73 to R75). What is proved of such a port is proved of all three engines. -/
structure PackPort {w : Nat} {σ : Type} (next : σ → BitVec w × σ) (get : State → σ)
    (put : State → σ → State) (mk : PackJob w → Job) (ins : Word64 → BitVec 7 → Bool → Instr) : Prop where
  exec_eq : ∀ len nbits filt s, exec (ins len nbits filt) s = .next (s.packStart mk len nbits filt)
  idx_mk : ∀ j, (mk j).idx = j.idx
  put_get : ∀ s, put s (get s) = s
  moves_put : ∀ s e, (put s e).moves = s.moves
  packStep_put : ∀ s e o f j,
    ({ put s e with out := o, job := some (mk j), freeIx := f } : State).packStep (mk j) =
      { put s (packPass next e j).1 with
        out := o ++ (packPass next e j).2.1
        job := (packPass next e j).2.2.map mk
        freeIx := f }

theorem packPort_seiran :
    PackPort seiranStep (·.seiran) (fun s e => { s with seiran := e }) .seiran .seiranPack :=
  ⟨fun _ _ _ _ => rfl, fun _ => rfl, fun _ => rfl, fun _ _ => rfl, fun _ _ _ _ _ => rfl⟩

theorem packPort_sfc32 :
    PackPort sfcStep (·.sfc32) (fun s e => { s with sfc32 := e }) .sfc32 .sfc32Pack :=
  ⟨fun _ _ _ _ => rfl, fun _ => rfl, fun _ => rfl, fun _ _ => rfl, fun _ _ _ _ _ => rfl⟩

theorem packPort_sfc64 :
    PackPort sfcStep (·.sfc64) (fun s e => { s with sfc64 := e }) .sfc64 .sfc64Pack :=
  ⟨fun _ _ _ _ => rfl, fun _ => rfl, fun _ => rfl, fun _ _ => rfl, fun _ _ _ _ _ => rfl⟩

/-- The state `n` passes after a `PACK` was taken in `s`, while it runs. -/
def packingState {w : Nat} {σ : Type} (next : σ → BitVec w × σ) (get : State → σ) (put : State → σ → State)
    (mk : PackJob w → Job) (j : PackJob w) (s : State) (n : Nat) : State :=
  { put s (stepsOf next (wordsFor w j.nbits n) (get s)) with
    out := s.out ++ lanesFrom 0 (acceptedOf next (get s) j.nbits j.filt n)
    job := some (mk (j.after next (get s) n))
    freeIx := s.freeIx + 1 }

section
variable {w : Nat} {σ : Type} {next : σ → BitVec w × σ} {get : State → σ} {put : State → σ → State}
  {mk : PackJob w → Job} {ins : Word64 → BitVec 7 → Bool → Instr} (port : PackPort next get put mk ins)
include port

/-- Taking a `PACK` with something to do (R72 to R75). -/
theorem PackPort.exec_eq_packingState (s : State) {len : Word64} {nbits : BitVec 7} (filt : Bool)
    (hw : nbits.toNat < w) (hnbits : nbits ≠ 0) (hlen : len ≠ 0) :
    exec (ins len nbits filt) s =
      .next (packingState next get put mk (packBegin w len nbits filt s.freeIx) s 0) := by
  have hk : 0 < w / nbits.toNat := Nat.div_pos hw.le (BitVec.toNat_pos_of_ne_zero hnbits)
  have hwords : wordsFor w (packBegin w len nbits filt s.freeIx).nbits 0 = 0 := wordsFor_zero hk
  rw [port.exec_eq, packStart_of_ne_zero s mk filt hw hnbits hlen, packingState, hwords, stepsOf, port.put_get,
    acceptedOf]
  simp [lanesFrom, PackJob.after]

/-- A step in which no reset comes is a pass. -/
theorem PackPort.step_packingState {s : State} (hr : s.noReset = true) (j : PackJob w) (n : Nat) :
    step (packingState next get put mk j s n) = .next (packingState next get put mk j s n).advance := by
  have hmoves : (packingState next get put mk j s n).moves = s.moves := port.moves_put s _
  rw [advance_of_job rfl]
  exact step_busy rfl (by rwa [State.noReset, hmoves])

section
variable {s : State} {j : PackJob w} (h0 : j.idx = 0)
include h0

/-- The pass after the one that delivers the last unit responds, and the block is idle. -/
theorem PackPort.advance_packingState_done {n : Nat}
    (hn : (acceptedOf next (get s) j.nbits j.filt n).length = j.len) :
    (packingState next get put mk j s n).advance =
      { packingState next get put mk j s n with
        out := s.out ++ lanesFrom 0 (acceptedOf next (get s) j.nbits j.filt n) ++
          [.response .ok (BitVec.ofNat 64 j.len)]
        job := none } := by
  rw [advance_of_job rfl, packingState, port.packStep_put, packPass_after_done next _ h0 hn]
  rfl

variable (hb : j.bits < j.nbits) (hw : j.nbits ≤ w)
include hb hw

/-- While units are missing, a pass is the next one of the loop. -/
theorem PackPort.advance_packingState {n : Nat}
    (hn : (acceptedOf next (get s) j.nbits j.filt n).length < j.len) :
    (packingState next get put mk j s n).advance = packingState next get put mk j s (n + 1) := by
  rw [advance_of_job rfl, packingState, port.packStep_put, packPass_after next _ h0 hb hw hn, List.append_assoc,
    ← lanesFrom_acceptedOf_succ]
  rfl

/-- As long as units are missing, `n` steps are `n` passes. -/
theorem PackPort.steps_packingState (hr : s.noReset = true) {n : Nat}
    (hn : ∀ m < n, (acceptedOf next (get s) j.nbits j.filt m).length < j.len) :
    steps n (packingState next get put mk j s 0) = .next (packingState next get put mk j s n) := by
  induction n with
  | zero => rfl
  | succ n ih =>
    rw [steps_add (ih fun m hm => hn m (hm.trans n.lt_succ_self)), steps_succ (port.step_packingState hr j n),
      port.advance_packingState h0 hb hw (hn n n.lt_succ_self), steps_zero]
end

/-- Each engine's `PACK` runs as R71 and R77 say. -/
theorem PackPort.delivers : packDelivers next get put ins := by
  intro s len nbits filt hw hnbits hlen hr
  have hpos : 0 < nbits.toNat := BitVec.toNat_pos_of_ne_zero hnbits
  refine ⟨_, port.exec_eq_packingState s filt hw hnbits hlen, rfl, List.append_nil _, fun n hn => ?_⟩
  have hrun {m : Nat} (hm : m ≤ n + 1) := port.steps_packingState
    (j := packBegin w len nbits filt s.freeIx) rfl hpos hw.le hr (n := m) fun i hi =>
      (length_acceptedOf_mono next (get s) nbits.toNat filt (show i ≤ n by omega)).trans_lt hn
  have hrunning {m : Nat} (hm : m ≤ n + 1) : packRunning next get put nbits.toNat filt s _ m :=
    ⟨_, (port.idx_mk _).trans (PackJob.idx_after next (get s) rfl m), hrun hm⟩
  have hdata : BitVec.ofNat 64 (packBegin w len nbits filt s.freeIx).len = len := BitVec.ofNat_toNat 64 len
  refine ⟨hrunning n.le_succ, fun hlast => ⟨hrunning le_rfl, ?_⟩⟩
  rw [steps_add (m := n + 1) (hrun le_rfl) 1, steps_succ (port.step_packingState hr _ _), steps_zero,
    port.advance_packingState_done rfl hlast, hdata]
  rfl
end

/-- Settles O42, by induction on the passes (`PackPort.steps_packingState`), each of which cuts the next candidate. -/
theorem packDeliversAcceptedCandidates : Obligations.PackDeliversAcceptedCandidates :=
  ⟨packPort_seiran.delivers, packPort_sfc32.delivers, packPort_sfc64.delivers⟩

/-! ## A `PACK` without a filter (R77 to R79) -/

theorem packEnds_of_packDelivers {w : Nat} {σ : Type} {next : σ → BitVec w × σ} {get : State → σ}
    {put : State → σ → State} {ins : Word64 → BitVec 7 → Bool → Instr} (h : packDelivers next get put ins) :
    packEnds next get put ins := by
  intro s len nbits hw hnbits hlen hr
  obtain ⟨s1, hexec, -, -, hrun⟩ := h s len nbits false hw hnbits hlen hr
  have hlength (n : Nat) : (acceptedOf next (get s) nbits.toNat false n).length = n := by
    rw [acceptedOf_false, List.length_map, List.length_range]
  obtain ⟨n, hn⟩ : ∃ n, len.toNat = n + 1 :=
    Nat.exists_eq_add_one.2 (BitVec.toNat_pos_of_ne_zero hlen)
  obtain ⟨-, hlast⟩ := hrun n (by rw [hlength, hn]; exact n.lt_succ_self)
  obtain ⟨-, hend⟩ := hlast ((hlength _).trans hn.symm)
  rw [acceptedOf_false] at hend
  exact ⟨s1, hexec, by rw [hn]; exact hend⟩

/-- Settles O43: without a filter all candidates are accepted, so number `len - 1` is the last one. -/
theorem unfilteredPackEnds : Obligations.UnfilteredPackEnds :=
  ⟨packEnds_of_packDelivers packPort_seiran.delivers, packEnds_of_packDelivers packPort_sfc32.delivers,
    packEnds_of_packDelivers packPort_sfc64.delivers⟩

/-- What matters of an unfiltered `SEIRAN.PACK` of bytes to the commands after it. -/
theorem seiranPack_bytes {s : State} (hr : s.noReset = true) {len : Word64} (hlen : len ≠ 0) :
    ∃ s1 t, exec (.seiranPack len 8 false) s = .next s1 ∧ steps (len.toNat + 1) s1 = .next t ∧ t.job = none ∧
      t.noReset = true ∧ t.seiran = stepsOf seiranStep (wordsFor 64 8 len.toNat) s.seiran ∧
      t.out = s.out ++ lanesFrom 0 ((List.range len.toNat).map (candOf seiranStep s.seiran 8)) ++
        [.response .ok len] := by
  obtain ⟨s1, hexec, hsteps⟩ := unfilteredPackEnds.1 s len 8 (by decide) (by decide) hlen hr
  exact ⟨s1, _, hexec, hsteps, rfl, hr, rfl, rfl⟩

/-- Settles O48: the second `PACK` of one byte starts with the word after the one that the first has drawn. -/
theorem packResidueIsNotKept : Obligations.PackResidueIsNotKept := by
  intro s hr
  obtain ⟨a, b, ha, hb, hbjob, hbr, hbe, hbout⟩ := seiranPack_bytes hr (len := 1) (by decide)
  obtain ⟨c, d, hc, hd, hdjob, -, -, hdout⟩ := seiranPack_bytes hbr (len := 1) (by decide)
  obtain ⟨x, y, hx, hy, hyjob, -, -, hyout⟩ := seiranPack_bytes hr (len := 2) (by decide)
  refine ⟨a, b, c, d, x, y, ha, hb, hbjob, hc, hd, hdjob, hx, hy, hyjob, ?_, ?_⟩
  · rw [hdout, hbout, hbe]
    simp [lanesFrom, List.range_succ, candOf, wordOf, wordsFor, stepsOf]
  · rw [hyout]
    simp [lanesFrom, List.range_succ, candOf]

/-! ## A filter that accepts nothing (R78) -/

theorem accepts_true_of_lt {cand : Nat} (h : cand < 0x20) : accepts true cand = false := by
  rw [← Bool.not_eq_true, accepts_true_iff]
  omega

section
variable {w : Nat} {σ : Type} {next : σ → BitVec w × σ} {get : State → σ} {put : State → σ → State}
  {mk : PackJob w → Job} {ins : Word64 → BitVec 7 → Bool → Instr} (port : PackPort next get put mk ins)
  {s : State} {len : Word64} {nbits : BitVec 7} (hnbits : nbits ≠ 0) (hlen : len ≠ 0) (hr : s.noReset = true)
include port hnbits hlen hr

/-- A `PACK` whose filter refuses every candidate runs on and delivers nothing, while its engine makes steps. -/
theorem PackPort.runs_of_refused (hw : nbits.toNat < w) {filt : Bool}
    (href : ∀ n, accepts filt (candOf next (get s) nbits.toNat n) = false) (n : Nat) :
    ∃ s1 j, exec (ins len nbits filt) s = .next s1 ∧
      steps n s1 = .next
        { put s (stepsOf next (wordsFor w nbits.toNat n) (get s)) with
          out := s.out
          job := some j
          freeIx := s.freeIx + 1 } := by
  obtain ⟨s1, hexec, -, -, hrun⟩ := port.delivers s len nbits filt hw hnbits hlen hr
  have hnil := acceptedOf_eq_nil next (get s) href n
  obtain ⟨⟨j, -, hsteps⟩, -⟩ := hrun n (by
    rw [hnil]
    exact BitVec.toNat_pos_of_ne_zero hlen)
  rw [hnil, lanesFrom, List.append_nil] at hsteps
  exact ⟨s1, j, hexec, hsteps⟩

/-- The printable filter refuses every candidate of at most 5 bits: each is below `0x20`. -/
theorem PackPort.runs_of_narrow (hw : 5 < w) (hnarrow : nbits.toNat ≤ 5) (n : Nat) :
    ∃ s1 t, exec (ins len nbits true) s = .next s1 ∧ steps n s1 = .next t ∧ t.job.isSome = true ∧
      t.out = s.out := by
  obtain ⟨s1, j, hexec, hsteps⟩ := port.runs_of_refused hnbits hlen hr (hnarrow.trans_lt hw)
    (fun n => accepts_true_of_lt ((candOf_lt next _ _ n).trans_le (Nat.pow_le_pow_right two_pos hnarrow))) n
  exact ⟨s1, _, hexec, hsteps, rfl, rfl⟩
end

/-- Settles O45: `PackPort.runs_of_narrow` on each engine. -/
theorem narrowFilteredPackNeverEnds : Obligations.NarrowFilteredPackNeverEnds := by
  intro u s len nbits n hnbits hnarrow hlen hr
  cases u with
  | seiran => exact packPort_seiran.runs_of_narrow hnbits hlen hr (by decide) hnarrow n
  | sfc32 => exact packPort_sfc32.runs_of_narrow hnbits hlen hr (by decide) hnarrow n
  | sfc64 => exact packPort_sfc64.runs_of_narrow hnbits hlen hr (by decide) hnarrow n

theorem stepsOf_seiran_zero (n : Nat) : stepsOf seiranStep n .zero = .zero := by
  rw [stepsOf_seiranStep, Function.iterate_fixed seiranT_zero]

/-- Every word of the all-zero state is 0 (R111). -/
theorem candOf_seiran_zero (nbits n : Nat) : candOf seiranStep .zero nbits n = 0 := by
  have hword : wordOf seiranStep .zero (n / (64 / nbits)) = 0 := by
    rw [wordOf, stepsOf_seiran_zero]
    decide
  simp [candOf, hword]

/-- Settles O46: every candidate is 0, which the filter refuses. -/
theorem zeroSeiranFilteredPackNeverEnds : Obligations.ZeroSeiranFilteredPackNeverEnds := by
  intro s len nbits n hs hnbits hw hlen hr
  have hs : s.seiran = .zero := hs
  have href (n : Nat) : accepts true (candOf seiranStep s.seiran nbits.toNat n) = false := by
    rw [hs, candOf_seiran_zero]
    rfl
  obtain ⟨s1, j, hexec, hsteps⟩ := packPort_seiran.runs_of_refused hnbits hlen hr hw href n
  exact ⟨s1, _, hexec, hsteps, rfl, rfl, by rw [hs]; exact stepsOf_seiran_zero _⟩

end Sys2Proof.Machine

/-! # Facade extraction (44_facade_extract.md): R80 the low bits of a word, R81 to R95 the commands -/

namespace Sys2Proof.Machine

/-! ## Frames and refusals (R39, R48 (a)) -/

/-- Of the functions of a unit only 1, 2 and 8 have operands (R38, R39). -/
theorem noOperands_of_functOf {op : BitVec 8} {i : Instr} (henc : encode i = Frame.ofFields 0 0 0 op)
    (hfunct : Spec.functOf op ∉ [1, 2, 8]) : Spec.NoOperands op i := by
  refine ⟨henc, fun f hf => ?_⟩
  have hop : f.op = (encode i).op := by rw [hf, henc, Frame.op_ofFields]
  rw [← hf, hop] at hfunct
  cases i with
  | seiranInit | seiranPack | sfc32Init | sfc32Init3 | sfc32Pack | sfc64Init | sfc64Init3 | sfc64Pack =>
    simp only [encode, packFrame, Frame.op_ofFields] at hfunct
    exact absurd hfunct (by decide)
  | _ => rw [decode, hop]; rfl

/-! ## Values cut from words (R80, R90) -/

theorem lowBits_eq_ofNat {w : Nat} (n : Nat) (x : BitVec w) :
    lowBits n x = BitVec.ofNat 64 (x.toNat % 2 ^ n) := by
  rw [lowBits, zext64_eq_ofNat, BitVec.toNat_setWidth]

theorem lowBits_width {w : Nat} (x : BitVec w) : lowBits w x = zext64 x :=
  congrArg zext64 (BitVec.setWidth_eq x)

theorem joinHalves_eq_ofNat (hi lo : Word32) :
    joinHalves hi lo = BitVec.ofNat 64 (hi.toNat * 2 ^ 32 + lo.toNat) := by
  have htoNat : (joinHalves hi lo).toNat = hi.toNat * 2 ^ 32 + lo.toNat := by
    rw [joinHalves, BitVec.toNat_append, ← Nat.shiftLeft_add_eq_or_of_lt lo.isLt, Nat.shiftLeft_eq]
  rw [← htoNat, ← zext64_eq_ofNat, zext64_word64]

/-! ## The commands -/

/-- Settles O37: `exec` draws one word and answers its low `N` bits; `NEXTU64` draws two and joins them, the first
one low. -/
theorem sfc32ExtractResults : Obligations.Sfc32ExtractResults := by
  refine ⟨noOperands_of_functOf rfl (by decide), noOperands_of_functOf rfl (by decide),
    noOperands_of_functOf rfl (by decide), noOperands_of_functOf rfl (by decide),
    noOperands_of_functOf rfl (by decide), fun i N s h => ?_, fun s => ?_⟩
  · rw [← lowBits_eq_ofNat]
    simp only [List.mem_cons, Prod.mk.injEq, List.not_mem_nil, or_false] at h
    obtain ⟨rfl, rfl⟩ | ⟨rfl, rfl⟩ | ⟨rfl, rfl⟩ | ⟨rfl, rfl⟩ := h <;> rfl
  · rw [exec_sfc32NextU64, joinHalves_eq_ofNat]
    rfl

/-- Settles O32: `exec` draws one word and answers its low `N` bits. -/
theorem seiranExtractResults : Obligations.SeiranExtractResults := by
  refine ⟨noOperands_of_functOf rfl (by decide), noOperands_of_functOf rfl (by decide),
    noOperands_of_functOf rfl (by decide), noOperands_of_functOf rfl (by decide),
    noOperands_of_functOf rfl (by decide), fun i N s h => ?_⟩
  rw [← lowBits_eq_ofNat]
  simp only [List.mem_cons, Prod.mk.injEq, List.not_mem_nil, or_false] at h
  obtain ⟨rfl, rfl⟩ | ⟨rfl, rfl⟩ | ⟨rfl, rfl⟩ | ⟨rfl, rfl⟩ | ⟨rfl, rfl⟩ := h <;> rfl

/-- Settles O38: `exec` draws one word and answers its low `N` bits. -/
theorem sfc64ExtractResults : Obligations.Sfc64ExtractResults := by
  refine ⟨noOperands_of_functOf rfl (by decide), noOperands_of_functOf rfl (by decide),
    noOperands_of_functOf rfl (by decide), noOperands_of_functOf rfl (by decide),
    noOperands_of_functOf rfl (by decide), fun i N s h => ?_⟩
  rw [← lowBits_eq_ofNat]
  simp only [List.mem_cons, Prod.mk.injEq, List.not_mem_nil, or_false] at h
  obtain ⟨rfl, rfl⟩ | ⟨rfl, rfl⟩ | ⟨rfl, rfl⟩ | ⟨rfl, rfl⟩ | ⟨rfl, rfl⟩ := h <;> rfl

/-- Settles O39: the low `W` bits of a `W`-bit word are the word. -/
theorem wholeWordExtractIsNext : Obligations.WholeWordExtractIsNext := by
  refine fun s => ⟨?_, ?_, ?_⟩
  · rw [exec_seiranNextU64, exec_seiranNext, State.drawSeiran, lowBits_width, zext64_word64]
    rfl
  · rw [exec_sfc32NextU32, exec_sfc32Next, State.drawSfc32, lowBits_width]
    rfl
  · rw [exec_sfc64NextU64, exec_sfc64Next, State.drawSfc64, lowBits_width]
    rfl

end Sys2Proof.Machine

/-! # Exceptions (60_exceptions.md): R96 no command faults, R97 a refused frame, R107 the idle block waits -/

namespace Sys2Proof.Machine

/-- Settles O10. -/
theorem noCommandFaults : Obligations.NoCommandFaults := ⟨exec_next, step_next⟩

theorem Reject.status_eq_or (e : Reject) : e.status = .badOp ∨ e.status = .badOperand := by
  cases e with
  | badOp => exact .inl rfl
  | badOperand => exact .inr rfl

/-- Settles O6: a refusal only delivers its response, and the decoder has no reason but the two of R43. -/
theorem refusedFrameChangesNothing : Obligations.RefusedFrameChangesNothing :=
  fun _ _ _ e hidle hm hd => ⟨Reject.status_eq_or e, step_refused hidle hm hd⟩

theorem advance_of_idle {s : State} (hj : s.job = none) : s.advance = s := by
  rw [State.advance, hj]

theorem step_of_moves_nil {s : State} (hm : s.moves = []) : step s = .next s.advance := by
  rw [step, State.turn, hm]

/-- Settles O11: without a move a step only advances the block, and only a running `PACK` can advance. -/
theorem idleBlockWaits : Obligations.IdleBlockWaits := fun s hidle hm =>
  calc step s = .next s.advance := step_of_moves_nil hm
    _ = .next s := congrArg _ (advance_of_idle hidle)

end Sys2Proof.Machine

/-! # Reset and hazards (70_reset_and_hazards.md): R108, R109 and R115 the reset event, R111 the all-zero Seiran
state, R112 and R113 a `PACK` that runs -/

namespace Sys2Proof.Machine

/-! ## A running `PACK` takes none of the host's moves (R112, R113) -/

theorem packStep_moves (s : State) (j : Job) : (s.packStep j).moves = s.moves := by
  cases j <;> rfl

/-- Settles O12. -/
theorem busyBlockTakesNoFrame : Obligations.BusyBlockTakesNoFrame := fun s j hj hr =>
  ⟨step_busy hj hr, packStep_moves s j⟩

theorem packStep_with_moves (s : State) (j : Job) (ms : List HostMove) :
    { s with moves := ms }.packStep j = { s.packStep j with moves := ms } := by
  cases j <;> rfl

/-- What the block does by itself takes none of the host's moves and does not depend on them. -/
theorem advance_with_moves (s : State) (ms : List HostMove) :
    { s with moves := ms }.advance = { s.advance with moves := ms } := by
  obtain hj | ⟨j, hj⟩ := Option.eq_none_or_eq_some s.job
  · rw [advance_of_idle hj]
    exact advance_of_idle hj
  · rw [advance_of_job hj, ← packStep_with_moves]
    exact advance_of_job hj

theorem advance_iterate_with_moves (n : Nat) (s : State) (ms : List HostMove) :
    State.advance^[n] { s with moves := ms } = { State.advance^[n] s with moves := ms } := by
  have hcommute : Function.Commute State.advance fun s => { s with moves := ms } :=
    fun s => advance_with_moves s ms
  exact hcommute.iterate_left n s

/-! ## A step with a reset to come (R108, R109, R115) -/

theorem step_of_reset_zero {s : State} {ms : List HostMove} (hm : s.moves = .reset 0 :: ms) :
    step s = .next { s with moves := ms }.hostReset := by
  rw [step, State.turn, hm]

theorem step_of_reset_succ {s : State} {n : Nat} {ms : List HostMove} (hm : s.moves = .reset (n + 1) :: ms) :
    step s = .next { s with moves := .reset n :: ms }.advance := by
  rw [step, State.turn, hm]

theorem step_of_cut {s : State} {f : Frame} {ms : List HostMove} (hidle : s.Idle) (hm : s.moves = .cut f :: ms) :
    step s = .next { s with moves := ms }.hostReset := by
  rw [step, State.turn, hm, hidle]
  rfl

/-- Settles O14: the step with the reset due is the reset event. -/
theorem resetEventClearsStateWords : Obligations.ResetEventClearsStateWords := fun _ _ => step_of_reset_zero

/-! ## A reset after a number of steps (R109, R112, R115) -/

/-- The block left to itself keeps the parameter words and what it has delivered. -/
theorem advance_keeps (s : State) : s.SamePqr s.advance ∧ s.out <+: s.advance.out := by
  cases hj : s.job with
  | none => rw [advance_of_idle hj]; exact ⟨⟨rfl, rfl⟩, List.prefix_rfl⟩
  | some j => rw [advance_of_job hj]; exact ⟨packStep_samePqr s j, out_isPrefix_packStep s j⟩

theorem advance_iterate_keeps (s : State) (n : Nat) :
    s.SamePqr (State.advance^[n] s) ∧ s.out <+: (State.advance^[n] s).out := by
  induction n with
  | zero => exact ⟨⟨rfl, rfl⟩, List.prefix_rfl⟩
  | succ n ih =>
    obtain ⟨⟨h32, h64⟩, hout⟩ := ih
    obtain ⟨⟨h32', h64'⟩, hout'⟩ := advance_keeps (State.advance^[n] s)
    rw [Function.iterate_succ_apply']
    exact ⟨⟨h32'.trans h32, h64'.trans h64⟩, hout.trans hout'⟩

/-- A reset that comes after `n` steps ends what the block has done by itself till then. -/
theorem steps_of_reset {s : State} {n : Nat} {ms : List HostMove} (hm : s.moves = .reset n :: ms) :
    steps (n + 1) s = .next { State.advance^[n] s with moves := ms }.hostReset := by
  induction n generalizing s with
  | zero => rw [steps_succ (step_of_reset_zero hm), steps_zero, Function.iterate_zero_apply]
  | succ n ih =>
    rw [steps_succ (step_of_reset_succ hm), advance_with_moves, ih rfl, advance_iterate_with_moves,
      Function.iterate_succ_apply]

/-- The same with every field written out: only the output and the count of free values tell what has run. -/
theorem steps_of_reset_eq {s : State} {n : Nat} {ms : List HostMove} (hm : s.moves = .reset n :: ms) :
    steps (n + 1) s = .next
      { State.advance^[n] s with
        seiran := { a := 0, b := 0 }
        sfc32 := Sfc.zeroed s.sfc32.pqr
        sfc64 := Sfc.zeroed s.sfc64.pqr
        job := none
        moves := ms } := by
  obtain ⟨⟨h32, h64⟩, -⟩ := advance_iterate_keeps s n
  rw [steps_of_reset hm, ← h32, ← h64]
  rfl

/-- Settles O15: a cut of the idle block is the reset event, and one that comes later finds the block as it has
advanced by itself. -/
theorem laterResetEndsAnyCommand : Obligations.LaterResetEndsAnyCommand := by
  refine ⟨fun s f ms hidle hm => ?_, fun s n ms hm => ?_⟩
  · rw [step_of_cut hidle hm, step_of_reset_zero rfl]
  · obtain ⟨-, hout⟩ := advance_iterate_keeps s n
    exact ⟨_, steps_of_reset_eq hm, rfl, rfl, rfl, rfl, rfl, hout⟩

/-! ## A reset of a running `PACK` (R109, R115) -/

section
variable {w : Nat} {σ : Type} {next : σ → BitVec w × σ} {get : State → σ} {put : State → σ → State}
  {mk : PackJob w → Job} {ins : Word64 → BitVec 7 → Bool → Instr} (port : PackPort next get put mk ins)
include port

/-- As long as units are missing, the block left to itself makes passes, whatever the host is about to do. -/
theorem PackPort.advance_iterate_packingState {s : State} {j : PackJob w} (h0 : j.idx = 0)
    (hb : j.bits < j.nbits) (hw : j.nbits ≤ w) {n : Nat}
    (hn : ∀ m < n, (acceptedOf next (get s) j.nbits j.filt m).length < j.len) :
    State.advance^[n] (packingState next get put mk j s 0) = packingState next get put mk j s n := by
  induction n with
  | zero => rfl
  | succ n ih =>
    rw [Function.iterate_succ_apply', ih fun m hm => hn m (hm.trans n.lt_succ_self),
      port.advance_packingState h0 hb hw (hn n n.lt_succ_self)]

/-- The lanes of the passes before the reset stay, and nothing else of the `PACK` does. -/
theorem PackPort.resetKeeps : packResetKeeps next get ins := by
  intro s len nbits filt n ms hw hnbits hlen hm hn
  have hexec := port.exec_eq_packingState s filt hw hnbits hlen
  have hrun := port.advance_iterate_packingState (j := packBegin w len nbits filt s.freeIx) rfl
    (BitVec.toNat_pos_of_ne_zero hnbits) hw.le hn
  obtain ⟨h32, h64⟩ := exec_samePqr hexec
  refine ⟨_, hexec, ?_⟩
  have hmoves : (packingState next get put mk (packBegin w len nbits filt s.freeIx) s 0).moves = .reset n :: ms :=
    (port.moves_put s _).trans hm
  rw [steps_of_reset_eq hmoves, hrun, h32, h64]
  rfl
end

/-- Settles O57: `PackPort.resetKeeps` on each engine. -/
theorem resetEndsPackKeepingItsLanes : Obligations.ResetEndsPackKeepingItsLanes :=
  ⟨packPort_seiran.resetKeeps, packPort_sfc32.resetKeeps, packPort_sfc64.resetKeeps⟩

/-! ## The all-zero Seiran state (R111) -/

theorem lowBits_zero {w : Nat} (n : Nat) : lowBits n 0#w = 0 := by
  rw [lowBits_eq_ofNat, BitVec.toNat_zero, Nat.zero_mod]
  rfl

theorem seiranStep_zero : seiranStep .zero = (0, .zero) := by decide

/-- What is cut from the word of the all-zero state is 0, if what is cut from 0 is. -/
theorem drawSeiran_of_zero {s : State} (hs : s.seiran = .zero) {f : Word64 → Word64} (hf : f 0 = 0) :
    s.drawSeiran f = { s with seiran := .zero }.respond 0 := by
  rw [State.drawSeiran, State.callSeiran, hs, seiranStep_zero, hf]

theorem SeiranLinear.map_zero {f : Seiran → Seiran} (hf : SeiranLinear f) : f .zero = .zero := by
  have h := hf .zero .zero
  rwa [Seiran.xor_self, Seiran.xor_self] at h

theorem exec_jump_of_zero {i : Instr} {p : BitVec 128} (hi : IsJumpPoly i p) {s : State} (hs : s.seiran = .zero) :
    exec i s = .next ({ s with seiran := .zero }.respond 0) := by
  rw [exec_of_isJumpPoly hi, hs, (polyAct_linear p).map_zero]

/-- A Seiran command other than `INIT` and `PACK` jumps or cuts its answer from one word. -/
theorem exec_seiran_zero {i : Instr} (hu : i.engine = .seiran) (hpack : i.isPack = false)
    (hinit : ∀ seed, i ≠ .seiranInit seed) {s : State} (hs : s.seiran = .zero) :
    exec i s = .next ({ s with seiran := .zero }.respond 0) := by
  cases i
  case seiranInit seed => exact absurd rfl (hinit seed)
  case seiranPack => cases hpack
  case seiranJump32 => exact exec_jump_of_zero (.inl ⟨rfl, rfl⟩) hs
  case seiranJump64 => exact exec_jump_of_zero (.inr (.inl ⟨rfl, rfl⟩)) hs
  case seiranJump96 => exact exec_jump_of_zero (.inr (.inr ⟨rfl, rfl⟩)) hs
  case seiranNext => exact congrArg _ (drawSeiran_of_zero hs rfl)
  case seiranNextBool | seiranNextU8 | seiranNextU16 | seiranNextU32 | seiranNextU64 =>
    exact congrArg _ (drawSeiran_of_zero hs (lowBits_zero _))
  all_goals cases hu

/-- Settles O53: one step and every jump keep the all-zero state and give 0, and so is every candidate of a `PACK`. -/
theorem zeroSeiranStaysZero : Obligations.ZeroSeiranStaysZero := by
  refine ⟨fun i s hu hpack hinit hs => exec_seiran_zero hu hpack hinit hs,
    fun s len nbits hs hnbits hw hlen hr => ?_⟩
  have hs : s.seiran = .zero := hs
  obtain ⟨s1, hexec, hsteps⟩ := unfilteredPackEnds.1 s len nbits hw hnbits hlen hr
  have hzeros : (List.range len.toNat).map (candOf seiranStep .zero nbits.toNat) = List.replicate len.toNat 0 := by
    rw [List.map_congr_left fun n _ => candOf_seiran_zero nbits.toNat n, List.map_const', List.length_range]
  simp only [hs, stepsOf_seiran_zero, hzeros] at hsteps
  exact ⟨s1, hexec, hsteps⟩

end Sys2Proof.Machine
